-- ==== Sys2Proof/Word.lean ====
section
/-! DEFINITION. The widths of the spec's values (00_scope.md rules R7, R9): every value is an unsigned
integer of a stated width, held as a bit vector of that width. -/

namespace Sys2Proof

/-- A dial register or an ADC result: `DIAL_BITS` = 10 (R7). -/
abbrev Dial := BitVec 10

/-- A frame counter: `CNT_BITS` = 16 (R7). -/
abbrev Counter := BitVec 16

/-- A timer period or the timer's counter: `PERIOD_BITS` = 16 (R7, R30). -/
abbrev Period := BitVec 16

/-- A sample: `SAMPLE_BITS` = 5 (R7). -/
abbrev Sample := BitVec 5

/-- An output port word: `PORT_BITS` = 8 (R7). -/
abbrev PortWord := BitVec 8

/-- The pseudo-random state: `RNG_BITS` = 32 (R7). -/
abbrev RngWord := BitVec 32

/-- An ADC channel number: 4 bits (R32). -/
abbrev ChannelId := BitVec 4

/-- A port identifier, 0 to 2 (R73).
DESIGN CHOICE (log 19): the spec gives the identifiers no width; two bits hold all that it names. -/
abbrev PortId := BitVec 2

end Sys2Proof
end

