-- ==== Sys2Proof/Config.lean ====
section
/-! DEFINITION. What an implementation fixes: the OPEN parameters of 00_scope.md rule R7 as plain data, and the values the
spec leaves free as constants with no body. -/

namespace Sys2Proof

/-- The enumerated set of waveform variants (R13, R92). -/
inductive Variant where
  | sine | triangle | pulse | saw | superSaw | clippedSaw | clippedSuperSaw | noise
deriving DecidableEq, Repr

/-- `OUTPUT_MODE` (R7, D2). -/
inductive OutputMode where
  | single | quad
deriving DecidableEq, Repr

/-- The four channels of `QUAD` mode (43 R190). -/
inductive Channel where
  | sine | tri | saw | pulse
deriving DecidableEq, Repr

/-- The table spaces of `MemRead` (R11, R60). -/
inductive TableSpace where
  | pt | st | q16 | q8 | q4
deriving DecidableEq, Repr

/-- `VARIANT_CODE` (R92, D1): the variant of each 3-bit code. -/
structure VariantCode where
  c0 : Variant
  c1 : Variant
  c2 : Variant
  c3 : Variant
  c4 : Variant
  c5 : Variant
  c6 : Variant
  c7 : Variant
deriving DecidableEq, Repr

/-- What one output bit carries in `SINGLE` mode (45 R221, R223 with one channel): 0 or one bit of the sample. -/
inductive SinglePin where
  | zero
  | bit (i : Fin 5)
deriving DecidableEq, Repr

/-- What one output bit carries in `QUAD` mode (45 R223): 0 or one bit of one of the four samples. -/
inductive QuadPin where
  | zero
  | bit (ch : Channel) (i : Fin 5)
deriving DecidableEq, Repr

/-- The eight bits of one port, `b7` the most significant (R8, R223). -/
structure PortMap (α : Type) where
  b7 : α
  b6 : α
  b5 : α
  b4 : α
  b3 : α
  b2 : α
  b1 : α
  b0 : α
deriving DecidableEq, Repr

/-- `SINGLE_PINMAP` (R7, 45 R221, D3): the port the one word of a frame goes to and what each of its bits carries.
DESIGN CHOICE (log 29): the spec gives the parameter no form beyond R223 "with one channel". -/
structure SinglePinmap where
  port : PortId
  pins : PortMap SinglePin
deriving DecidableEq, Repr

/-- `QUAD_PINMAP` (R223): a total function from port and bit, written as its three rows. -/
structure QuadPinmap where
  p0 : PortMap QuadPin
  p1 : PortMap QuadPin
  p2 : PortMap QuadPin
deriving DecidableEq, Repr

/-- The parameters of R7. `SINE_LEN` is the length of `st`; `PT_LEN` and `Q_LEN` are the lengths the contracts ask for
(`Machine/GoodConfig.lean`). Entries of `st`, `q16`, `q8`, `q4` are held in eight bits, so that an entry above 31
can be written and is then refused (R272 code 5).
DESIGN CHOICE (log 26): `F_TCLK`, `T_CONV`, `T_WORK` are left out; no rule reads them (R318). -/
structure Config where
  outputMode   : OutputMode
  variantCode  : VariantCode
  singlePinmap : SinglePinmap
  quadPinmap   : QuadPinmap
  /-- `N_PORTS`, the number of ports in use -/
  nPorts       : Nat
  st           : List (BitVec 8)
  q16          : List (BitVec 8)
  q8           : List (BitVec 8)
  q4           : List (BitVec 8)
  pt           : List Period
  xsA          : Nat
  xsB          : Nat
  xsC          : Nat
  seed         : RngWord
  triInit      : Sample
  chW          : ChannelId
  chE          : ChannelId
  chF          : ChannelId
  pInit        : Period
deriving DecidableEq, Repr

/-- The names of the parameters, as the fault `BadConfig` records them (60 R272).
DESIGN CHOICE (log 22): R272 asks for "the parameter's name", and where `CH_W`, `CH_E`, `CH_F` are not pairwise distinct three are
involved; the fault then records the one joint name `channels`. -/
inductive Param where
  | seed | xsA | xsB | xsC | sineLen | st | q16 | q8 | q4 | pt | channels | variantCode | pInit
  | nPorts | singlePinmap | quadPinmap
deriving DecidableEq, Repr

/-- One move: whose turn it is, with what the environment supplies for it (R20, D18, D35). -/
inductive Move where
  /-- the core takes its next step -/
  | core
  /-- one timer clock (41 R121) -/
  | timerClock
  /-- the untimed match step (41 R122) -/
  | timerMatch
  /-- the ADC completes (42 R141): `ain` is `AIN[ACH]` at this moment, `residual` what a contaminated conversion returns -/
  | adcComplete (ain residual : Dial)
  /-- a reset event (70 R300) -/
  | reset
deriving DecidableEq, Repr, Inhabited

/-- Who moves, and with what values, where no script says so: the `n`-th free choice (log 5).
Nothing is known of it (D18: interleaving; R141, U3, U20: "any value"). -/
opaque Config.freeMove : Nat → Move

/-- The content of a port that holds no defined value (R42, R249, U4): the `n`-th free choice (log 9). -/
opaque Config.freePort : Nat → PortWord

/-- The content of `ACH` after `A.INIT` (R243 "hold no defined value"): the `n`-th free choice (log 9). -/
opaque Config.freeChannel : Nat → ChannelId

/-- The content of `ARES` after `A.INIT` (R243 "hold no defined value"): the `n`-th free choice (log 9). -/
opaque Config.freeResult : Nat → Dial

end Sys2Proof
end

