-- ==== Sys2Proof/Machine/Parts.lean ====
section
/-! DEFINITION. The parts of the state (10_state.md), one structure per owner (R20, 60 R282), as plain data. -/

namespace Sys2Proof.Machine

/-- The core's position in its fixed cycle (R27). -/
inductive FStep where
  | boot | wait | reload | synth | effect | encode | acq | advance
deriving DecidableEq, Repr

/-- The position inside the reset sequence of 70 R301, in its order (the model's own, log 4): the three configure operations, the
core registers, then for each dial the selection, the discarded read and the kept read. -/
inductive BootStep where
  | dInit | aInit | tInit | regs
  | selW | discW | keepW
  | selE | discE | keepE
  | selF | discF | keepF
deriving DecidableEq, Repr

/-- The core registers of R21 to R25. -/
structure CoreRegs where
  /-- waveform dial (R21) -/
  dw    : Dial
  /-- effect dial (R21) -/
  de    : Dial
  /-- frequency dial (R21) -/
  df    : Dial
  /-- frame counter (R22) -/
  cnt   : Counter
  /-- detuned counter (R23) -/
  det   : Counter
  /-- triangle amplitude (R24) -/
  tri   : Sample
  /-- pseudo-random state (R25) -/
  rng   : RngWord
  /-- the value the last ADC operation with a result returned (46 R246 to R248; the model's own, log 12) -/
  res   : Dial
  /-- `A.READBLK` has issued its `A.START` and polls (46 R248; the model's own, log 11) -/
  rdblk : Bool
deriving DecidableEq, Repr

/-- The samples of a frame (R26): `SMP` of `SINGLE` mode and the four of `QUAD` mode (43 R190). They live from `SYNTH` to
`ENCODE` (log 13). -/
structure Samples where
  mono  : Sample
  sine  : Sample
  tri   : Sample
  saw   : Sample
  pulse : Sample
deriving DecidableEq, Repr

/-- The sequencer (R27): `FSTEP`, the position in the reset sequence, the channel a `QUAD` frame works on (log 14), and how many HAL
operations of the operation at hand are done (D28: each is a step of its own; log 10). -/
structure Sequencer where
  fstep : FStep
  boot  : BootStep
  chan  : Channel
  part  : Fin 3
deriving DecidableEq, Repr

/-- The timer (R30, R31). -/
structure Timer where
  /-- `TCNT`: the timer clocks since the last match or `T.INIT`, where no untimed match is mixed in (log 6) -/
  tcnt      : Period
  tper      : Period
  tnxt      : Period
  /-- `MATCH` -/
  matchFlag : Bool
  /-- the timer agent runs: from `T.INIT` on (41 R120; DEDUCED, log 7) -/
  running   : Bool
deriving DecidableEq, Repr

/-- The ADC (R32, R33). -/
structure Adc where
  ach     : ChannelId
  abusy   : Bool
  adone   : Bool
  ares    : Dial
  asettle : Bool
deriving DecidableEq, Repr

/-- The output ports (R34); `outputs` says that `D.INIT` has made them outputs (46 R249). -/
structure Ports where
  p0      : PortWord
  p1      : PortWord
  p2      : PortWord
  outputs : Bool
deriving DecidableEq, Repr

/-- What the environment will do (log 5): the moves that come next, first first, and how many free values have been drawn. -/
structure Environment where
  script : List Move
  draws  : Nat
deriving DecidableEq, Repr

/-- The peripherals that the reset sequence configures (70 R301, R302). -/
inductive Peripheral where
  | timer | adc | ports
deriving DecidableEq, Repr

/-- An event of the history (R48). -/
inductive Event where
  | tInit
  | aInit
  | dInit
  | tSetper (v : Period)
  | tWaitclr
  | aSel (ch : ChannelId)
  | aStart
  | aDone (b : Bool)
  | aRead (v : Dial)
  | aReadblk (v : Dial)
  | dWrite (p : PortId) (v : PortWord)
  | timerMatch
  | adcComplete (v : Dial)
  | reset
deriving DecidableEq, Repr

end Sys2Proof.Machine
end

