-- ==== Sys2Proof/Machine/Flags.lean ====
section
/-! DEFINITION. Every flag computation of the spec. The block has no arithmetic condition codes; its flags are `MATCH`
(10_state.md R30, R31) and `ABUSY`, `ADONE`, `ASETTLE` (R32, R33), set and cleared as 60 R275 tabulates. -/

namespace Sys2Proof.Machine

/-- A match: `MATCH <- 1`, and it stays 1 if it was 1 (R31); `TPER <- TNXT` (41 R121, R122). -/
def Timer.raiseMatch (t : Timer) : Timer := { t with matchFlag := true, tper := t.tnxt }

/-- `MATCH <- 0` (46 R242). -/
def Timer.clearMatch (t : Timer) : Timer := { t with matchFlag := false }

/-- `ABUSY <- 1; ADONE <- 0` (46 R245). `ARES` keeps the previous result. -/
def Adc.started (a : Adc) : Adc := { a with abusy := true, adone := false }

/-- `ARES <- v; ASETTLE <- 0; ABUSY <- 0; ADONE <- 1` (42 R141). -/
def Adc.completed (v : Dial) (a : Adc) : Adc :=
  { a with ares := v, asettle := false, abusy := false, adone := true }

/-- `ACH <- ch; ASETTLE <- 1`, even if `ch` equals the old `ACH` (46 R244, D36). -/
def Adc.selected (ch : ChannelId) (a : Adc) : Adc := { a with ach := ch, asettle := true }

/-- `ABUSY <- 0; ADONE <- 0; ASETTLE <- 1` (46 R243); `ACH` and `ARES` hold no defined value and are given. -/
def Adc.initialised (ch : ChannelId) (v : Dial) (_ : Adc) : Adc :=
  { ach := ch, abusy := false, adone := false, ares := v, asettle := true }

/-- The result of a conversion: contaminated while `ASETTLE == 1`, else the settled value of the channel (42 R141, 10 R33). -/
def Adc.converted (ain residual : Dial) (a : Adc) : Dial := if a.asettle then residual else ain

end Sys2Proof.Machine
end

