-- ==== Sys2Proof/Machine/Operands.lean ====
section
/-! DEFINITION. Operand assembly: the fields of the selector words (30_encoding.md rules R91 to R97) and the slices of a
phase value that the generators read (R98). -/

namespace Sys2Proof

/-- `variant = DW[9:7]` (R92). -/
def variantField (dw : Dial) : BitVec 3 := dw.extractLsb' 7 3

/-- `level = DE[9:8]` (R93). -/
def levelField (de : Dial) : BitVec 2 := de.extractLsb' 8 2

/-- `pw = DE[9:5]` (R94). -/
def pwField (de : Dial) : BitVec 5 := de.extractLsb' 5 5

/-- The pulse threshold `t = 32 - pw`, a 6-bit value in 1..32 (R94). -/
def pulseThreshold (de : Dial) : BitVec 6 := 32#6 - (pwField de).setWidth 6

/-- `pidx = DF[9:1]` (R95). -/
def pidxField (df : Dial) : BitVec 9 := df.extractLsb' 1 9

/-- The acquisition word `CNT[7:0]` (R96). -/
def acqWord (cnt : Counter) : BitVec 8 := cnt.extractLsb' 0 8

/-- `band`, bits 7:5 of the acquisition word (R91). -/
def bandField (b : BitVec 8) : BitVec 3 := b.extractLsb' 5 3

/-- `off`, bits 4:0 of the acquisition word (R91). -/
def offField (b : BitVec 8) : BitVec 5 := b.extractLsb' 0 5

/-- `skip = CNT[6:0]` (R97). -/
def skipField (cnt : Counter) : BitVec 7 := cnt.extractLsb' 0 7

/-- `c[5]`, the triangle's direction bit (R98). -/
def directionBit (c : Counter) : Bool := c.getLsbD 5

/-- `c[5:1]`, the saw value (R98). -/
def sawSlice (c : Counter) : BitVec 5 := c.extractLsb' 1 5

/-- `c[5:0]`, the position in the clipped saw (R98). -/
def clipSlice (c : Counter) : BitVec 6 := c.extractLsb' 0 6

end Sys2Proof
end

