-- ==== Sys2Proof/Machine/Defaults.lean ====
section
/-! DEFINITION. The spec's default parameters (00_scope.md rule R7): its own choices for its test vectors, one admissible
configuration among many (log 2). No rule rests on them. -/

namespace Sys2Proof

/-- The code order of R92 (D1). -/
def defaultVariantCode : VariantCode :=
  { c0 := .sine, c1 := .triangle, c2 := .pulse, c3 := .saw,
    c4 := .superSaw, c5 := .clippedSaw, c6 := .clippedSuperSaw, c7 := .noise }

/-- The default `SINGLE_PINMAP`: bits 4:0 of port 0, bits 7:5 zero (R7, R221, D3). -/
def defaultSinglePinmap : SinglePinmap :=
  { port := 0
    pins := { b7 := .zero, b6 := .zero, b5 := .zero, b4 := .bit 4,
              b3 := .bit 3, b2 := .bit 2, b1 := .bit 1, b0 := .bit 0 } }

/-- `QUAD_PINMAP_EXAMPLE` (45 R224), the spec's own instance; the wiring of the repository is not given. -/
def quadPinmapExample : QuadPinmap :=
  { p0 := { b7 := .bit .sine 2, b6 := .bit .sine 1, b5 := .bit .sine 0, b4 := .bit .tri 0,
            b3 := .zero, b2 := .zero, b1 := .zero, b0 := .zero },
    p1 := { b7 := .zero, b6 := .zero, b5 := .bit .pulse 4, b4 := .bit .saw 4,
            b3 := .bit .tri 4, b2 := .bit .tri 3, b1 := .bit .tri 2, b0 := .bit .tri 1 },
    p2 := { b7 := .zero, b6 := .zero, b5 := .zero, b4 := .zero,
            b3 := .zero, b2 := .zero, b1 := .bit .sine 4, b0 := .bit .sine 3 } }

/-- The default sine table of R66, index 0 first. -/
def defaultSineTable : List (BitVec 8) :=
  [16, 17, 19, 20, 21, 23, 24, 25] ++ [26, 27, 28, 29, 30, 30, 31, 31] ++
  [31, 31, 31, 30, 30, 29, 28, 27] ++ [26, 25, 24, 23, 21, 20, 19, 17] ++
  [16, 14, 12, 11, 10, 8, 7, 6] ++ [5, 4, 3, 2, 1, 1, 0, 0] ++
  [0, 0, 0, 1, 1, 2, 3, 4] ++ [5, 6, 7, 8, 10, 11, 12, 14]

/-- The table `s & mask` for `s` in 0..31 (R68). -/
def maskTable (mask : BitVec 8) : List (BitVec 8) :=
  (List.range 32).map fun s => BitVec.ofNat 8 s &&& mask

/-- The fixture `PT[i] = 1511 - i` (R68, D8). -/
def fixturePeriodTable : List Period :=
  (List.range 512).map fun i => BitVec.ofNat 16 (1511 - i)

/-- The defaults of R7. `pInit` has none there: 1000 is the example of R240 and of 95_test_vectors.md 3.13
(DESIGN CHOICE, log 3). The xorshift amounts are the spec's K1, `SEED` is that of its test vectors. -/
def Config.default : Config :=
  { outputMode := .single
    variantCode := defaultVariantCode
    singlePinmap := defaultSinglePinmap
    quadPinmap := quadPinmapExample
    nPorts := 1
    st := defaultSineTable
    q16 := maskTable 0x1E
    q8 := maskTable 0x1C
    q4 := maskTable 0x18
    pt := fixturePeriodTable
    xsA := 13
    xsB := 17
    xsC := 5
    seed := 1
    triInit := 0
    chW := 0
    chE := 1
    chF := 2
    pInit := 1000 }

/-- The same with four channels: `QUAD` mode and the three ports that R7 gives it. -/
def Config.defaultQuad : Config := { Config.default with outputMode := .quad, nPorts := 3 }

end Sys2Proof
end

