-- ==== Sys2Proof/Machine/ResetValues.lean ====
section
/-! DEFINITION. What each part of the state holds right after the reset event (70_reset_and_hazards.md rule R300). Where the tables
of 10_state.md R38 to R41 give a constant, that constant; elsewhere 0 (DESIGN CHOICE, log 4: the spec gives these registers
no value until the reset sequence writes them, R39, and no rule reads one before that). -/

namespace Sys2Proof.Machine

/-- R38: `CNT`, `DET` 0, `TRI = TRI_INIT`, `RNG = SEED`; the dials have no value there (log 4). -/
def coreReset (cfg : Config) : CoreRegs :=
  { dw := 0, de := 0, df := 0, cnt := 0, det := 0, tri := cfg.triInit, rng := cfg.seed, res := 0, rdblk := false }

/-- No sample exists outside a frame (R26; log 13). -/
def samplesReset : Samples := { mono := 0, sine := 0, tri := 0, saw := 0, pulse := 0 }

/-- R300: `FSTEP = BOOT`, and the reset sequence begins at its first operation. -/
def seqReset : Sequencer := { fstep := .boot, boot := .dInit, chan := .sine, part := 0 }

/-- R40, with the timer not yet running (R302: "until `T.INIT` no match can occur"). -/
def timerReset (cfg : Config) : Timer :=
  { tcnt := 0, tper := cfg.pInit, tnxt := cfg.pInit, matchFlag := false, running := false }

/-- R41; `ARES` equals the value of `DF` (R41). -/
def adcReset (cfg : Config) : Adc :=
  { ach := cfg.chF, abusy := false, adone := true, ares := 0, asettle := false }

/-- R42: no initial word is given (log 4). -/
def portsReset : Ports := { p0 := 0, p1 := 0, p2 := 0, outputs := false }

/-- No script and no free value drawn (log 5). -/
def envReset : Environment := { script := [], draws := 0 }

end Sys2Proof.Machine
end

