-- ==== Sys2Proof/Machine/State.lean ====
section
/-! DEFINITION. The state of the block (10_state.md), the reasons a step can stop (60_exceptions.md rule R272), and the state right
after reset. -/

namespace Sys2Proof.Machine

/-- Everything the spec gives the block, and the model's own fields that INVENTORY.md lists. `cfg` holds the OPEN
parameters (00 R7); no step writes it (log 1). -/
structure State where
  cfg     : Config
  core    : CoreRegs
  samples : Samples
  seq     : Sequencer
  timer   : Timer
  adc     : Adc
  ports   : Ports
  env     : Environment
  events  : List Event
deriving DecidableEq, Repr

/-- The model-level faults of 60 R272, each with the value it records. All are terminal (R273) and safe: the hardware
does something in these cases and the model refuses to say what. -/
inductive Fault where
  /-- code 1: `A.READ` with `ADONE == 0` (U1), alone or inside an acquisition operation; records `CNT`. Safe. -/
  | adcNotDone (cnt : Counter)
  /-- code 2: `A.SEL` or `A.START` with `ABUSY == 1` (U2); records `CNT`. Safe. -/
  | adcBusy (cnt : Counter)
  /-- code 3: `MemRead` with an index outside the table (20 R61); records space and index. Safe. -/
  | tableIndex (space : TableSpace) (idx : Nat)
  /-- code 4: `T.SETPER` with operand 0, or a timer clock with `TPER == 0` (U5); records the period index. Safe. -/
  | zeroPeriod (pidx : BitVec 9)
  /-- code 5: the first boot step finds a parameter that violates its constraint; records its name. Safe. -/
  | badConfig (p : Param)
deriving DecidableEq, Repr

/-- What the model refuses, by name. -/
inductive Refusal where
  /-- an instruction without a meaning; raised only by an arm of exec. Safe. -/
  | notModelled (mnemonic : String)
  /-- a selector word that is no operation; raised by the step, and no word the sequencer selects is one (30 R101). Safe. -/
  | undecodable
  /-- `A.SEL` of a channel other than `CH_W`, `CH_E`, `CH_F`: no `AIN` is defined for it (U16). Safe. -/
  | channelWithoutInput (ch : ChannelId)
  /-- `MemWrite` to a port identifier that is not in use (20 R63, R73). Safe. -/
  | portNotInUse (p : PortId)
  /-- `T.INIT`, `A.INIT` or `D.INIT` after boot (U19 "refuse", 46 R251); the core never issues one there. Safe. -/
  | configuredAfterBoot (p : Peripheral)
deriving DecidableEq, Repr

/-- The state right after a reset of a block built with the parameters `cfg`. -/
def State.resetOf (cfg : Config) : State :=
  { cfg := cfg
    core := coreReset cfg
    samples := samplesReset
    seq := seqReset
    timer := timerReset cfg
    adc := adcReset cfg
    ports := portsReset
    env := envReset
    events := [] }

/-- The state right after reset, under the spec's default parameters (log 2). -/
def State.reset : State := State.resetOf Config.default

end Sys2Proof.Machine
end

