-- ==== Sys2Proof/Machine/Ops.lean ====
section
/-! DEFINITION. The named operations the meanings are made of: updates of the parts of the state, events (10_state.md R48),
table reads and port writes (20_memory.md R61, R63), and the shared bodies of the HAL operations (46_hal_operations.md). The block
takes no exception and returns from none (60 R270, R277, R278), so there is no operation for either. -/

namespace Sys2Proof.Machine

/-- The outcome of an operation. -/
abbrev Result := Host.Outcome State Fault Refusal

/-- Go on with `k` where an operation gives a state; a stop stays a stop (60 R273). -/
def andThen (r : Result) (k : State → Result) : Result :=
  match r with
  | .next s => k s
  | .fault f => .fault f
  | .refused q => .refused q

/-! ### Updates of the parts -/

def State.setCore (s : State) (c : CoreRegs) : State := { s with core := c }
def State.setSamples (s : State) (x : Samples) : State := { s with samples := x }
def State.setSeq (s : State) (q : Sequencer) : State := { s with seq := q }
def State.setTimer (s : State) (t : Timer) : State := { s with timer := t }
def State.setAdc (s : State) (a : Adc) : State := { s with adc := a }
def State.setPorts (s : State) (p : Ports) : State := { s with ports := p }
def State.setEnv (s : State) (e : Environment) : State := { s with env := e }

/-- `emit e`: append to the event history (00 R11, 10 R48). -/
def State.emit (s : State) (e : Event) : State := { s with events := s.events ++ [e] }

/-- `n` free values have been drawn (00 R11 `draw`). -/
def State.drew (s : State) (n : Nat) : State := s.setEnv { s.env with draws := s.env.draws + n }

/-- `k` HAL operations of the operation at hand are done (D28, log 10). -/
def State.setPart (s : State) (k : Fin 3) : State := s.setSeq { s.seq with part := k }

/-- One HAL operation of a composite operation; after it `k` of them are done, and 0 again after the last. -/
def stage (k : Fin 3) (r : Result) : Result := andThen r fun t => .next (t.setPart k)

/-! ### The sample of a frame (10 R26, 43 R190) -/

/-- The sample the `SYNTH` and `EFFECT` steps work on: `SMP` in `SINGLE` mode, the current channel's in `QUAD` mode. -/
def State.sample (s : State) : Sample :=
  match s.cfg.outputMode with
  | .single => s.samples.mono
  | .quad =>
    match s.seq.chan with
    | .sine => s.samples.sine
    | .tri => s.samples.tri
    | .saw => s.samples.saw
    | .pulse => s.samples.pulse

/-- `SMP <- v`, in the same place. -/
def State.putSample (s : State) (v : Sample) : State :=
  match s.cfg.outputMode with
  | .single => s.setSamples { s.samples with mono := v }
  | .quad =>
    match s.seq.chan with
    | .sine => s.setSamples { s.samples with sine := v }
    | .tri => s.setSamples { s.samples with tri := v }
    | .saw => s.setSamples { s.samples with saw := v }
    | .pulse => s.setSamples { s.samples with pulse := v }

/-! ### Tables (20 R60, R61) -/

/-- `MemRead(space, idx)`: the element, unchanged, or the fault `TableIndex`. -/
def memRead (space : TableSpace) (table : List (BitVec w)) (idx : Nat) (k : BitVec w → Result) : Result :=
  match table[idx]? with
  | some v => k v
  | none => .fault (.tableIndex space idx)

/-! ### Ports (20 R63, R73) -/

/-- The port identifiers in use: 0 to `N_PORTS - 1` (20 R73, 10 R34); 3 names no port (log 19). -/
def State.portInUse (s : State) (p : PortId) : Bool := decide (p.toNat < s.cfg.nPorts) && decide (p ≠ 3)

/-- `PORT[p] <- v`. -/
def Ports.write (q : Ports) (p : PortId) (v : PortWord) : Ports :=
  match p.toNat with
  | 0 => { q with p0 := v }
  | 1 => { q with p1 := v }
  | _ => { q with p2 := v }

/-- The content of `PORT[p]`, as the environment sees it (45 R225). -/
def Ports.read (q : Ports) (p : PortId) : PortWord :=
  match p.toNat with
  | 0 => q.p0
  | 1 => q.p1
  | _ => q.p2

/-- `MemWrite(PORTS, p, v)`: all eight bits at once, and the event; "defined only for a port identifier in use" (R63). -/
def memWritePort (p : PortId) (v : PortWord) (s : State) : Result :=
  if s.portInUse p then
    .next ((s.setPorts (s.ports.write p v)).emit (.dWrite p v))
  else .refused (.portNotInUse p)

/-! ### The HAL operations' shared bodies -/

/-- The configuration of a peripheral by `T.INIT`, `A.INIT` or `D.INIT`: in the reset sequence it leaves the state `t`; "No operation
disables or re-initialises a peripheral after the reset sequence" (46 R251), and re-issuing one after boot is refused (U19, log 20). -/
def configure (p : Peripheral) (t s : State) : Result :=
  if s.seq.fstep = .boot then .next t else .refused (.configuredAfterBoot p)

/-- `T.SETPER(v)` (46 R241): `TNXT <- v`, nothing else of the timer; operand 0 is the fault `ZeroPeriod` (60 R272), which
records the period index `pidx`. -/
def setPeriod (pidx : BitVec 9) (v : Period) (s : State) : Result :=
  if v = 0 then .fault (.zeroPeriod pidx)
  else .next ((s.setTimer { s.timer with tnxt := v }).emit (.tSetper v))

/-- The channels that have an `AIN` (U16, 20 R73). -/
def State.dialChannel (s : State) (ch : ChannelId) : Bool :=
  decide (ch = s.cfg.chW) || decide (ch = s.cfg.chE) || decide (ch = s.cfg.chF)

/-- `A.SEL(ch)` (46 R244). A channel without `AIN` is refused (U16), after the check the rule's text puts first (log 18). -/
def selectChannel (ch : ChannelId) (s : State) : Result :=
  if s.adc.abusy then .fault (.adcBusy s.core.cnt)
  else if s.dialChannel ch then
    .next ((s.setAdc (s.adc.selected ch)).emit (.aSel ch))
  else .refused (.channelWithoutInput ch)

/-- `A.START` (46 R245). -/
def startConversion (s : State) : Result :=
  if s.adc.abusy then .fault (.adcBusy s.core.cnt)
  else .next ((s.setAdc s.adc.started).emit .aStart)

/-- `A.DONE` (46 R246): the result is `ADONE`, returned as 0 or 1 (log 12). -/
def pollDone (s : State) : Result :=
  .next ((s.setCore { s.core with res := if s.adc.adone then 1 else 0 }).emit (.aDone s.adc.adone))

/-- `A.READ` (46 R247): the result is `ARES`; the ADC's state does not change (D20). -/
def readResult (s : State) : Result :=
  if s.adc.adone then
    .next ((s.setCore { s.core with res := s.adc.ares }).emit (.aRead s.adc.ares))
  else .fault (.adcNotDone s.core.cnt)

/-! ### Codes -/

/-- The fault numbers of 60 R272 (D29). -/
def Fault.code : Fault → Nat
  | .adcNotDone _ => 1
  | .adcBusy _ => 2
  | .tableIndex _ _ => 3
  | .zeroPeriod _ => 4
  | .badConfig _ => 5

end Sys2Proof.Machine
end

