-- ==== Sys2Proof/Machine/Agents.lean ====
section
/-! DEFINITION. The moves of the agents beside the core (10_state.md R20): the timer, the ADC, and the environment's reset; and whose move
comes next. A move whose agent is not enabled changes nothing but the script (log 5). -/

namespace Sys2Proof.Machine

/-- One timer clock (41 R121), once `T.INIT` has started the timer. `TPER == 0` is undefined (U5): the fault `ZeroPeriod`. -/
def timerClock (s : State) : Result :=
  if s.timer.running then
    if s.timer.tper = 0 then .fault (.zeroPeriod (pidxField s.core.df))
    else if s.timer.tcnt + 1 = s.timer.tper then
      .next ((s.setTimer { s.timer.raiseMatch with tcnt := 0 }).emit .timerMatch)
    else .next (s.setTimer { s.timer with tcnt := s.timer.tcnt + 1 })
  else .next s

/-- The untimed match step (41 R122): `MATCH <- 1; TPER <- TNXT`, enabled after `T.INIT`.
DESIGN CHOICE (log 6): R121 and R122 are alternatives in the spec, which does not say what `TCNT` holds in a run that mixes them; the
untimed step leaves `TCNT` as it is, so in such a run `TCNT` is not the number of timer clocks since the last match (10 R30). -/
def timerMatch (s : State) : Result :=
  if s.timer.running then .next ((s.setTimer s.timer.raiseMatch).emit .timerMatch) else .next s

/-- The ADC's completion step (42 R141), enabled while `ABUSY == 1`. -/
def adcComplete (ain residual : Dial) (s : State) : Result :=
  if s.adc.abusy then
    .next ((s.setAdc (s.adc.completed (s.adc.converted ain residual))).emit
      (.adcComplete (s.adc.converted ain residual)))
  else .next s

/-- A reset event (70 R300, 10 R43): all state of the block is lost. What the block is built with, what the environment
does next and the history are not state of the block (R37, R48; log 25). -/
def resetEvent (s : State) : State :=
  { State.resetOf s.cfg with env := s.env, events := s.events ++ [.reset] }

/-- Whose move is next: the script's first move, and after the script a free choice (D18; log 5). -/
def State.nextMove (s : State) : Move :=
  match s.env.script with
  | m :: _ => m
  | [] => Config.freeMove s.env.draws

/-- The state with that move taken off the script, or with one more free value drawn. -/
def State.afterMove (s : State) : State :=
  match s.env.script with
  | _ :: rest => s.setEnv { s.env with script := rest }
  | [] => s.drew 1

end Sys2Proof.Machine
end

