-- ==== Sys2Proof/Machine/Acquisition.lean ====
section
/-! DEFINITION. The dial acquisition operations (42_dial_acquisition.md R144 to R152), over the shared ADC operations. An
operation that is two or three HAL operations does one of them at a time (D28): which is next, `seq.part` says (log 10). -/

namespace Sys2Proof.Machine

/-- `A.SEL(ch)` then `A.START` (R144, R147). -/
def selectAndStart (ch : ChannelId) (s : State) : Result :=
  match s.seq.part.val with
  | 0 => stage 1 (selectChannel ch s)
  | _ => stage 0 (startConversion s)

/-- `x <- A.READ` with `x` not used, then `A.START` (R145, R148, R150). -/
def discardAndStart (s : State) : Result :=
  match s.seq.part.val with
  | 0 => stage 1 (readResult s)
  | _ => stage 0 (startConversion s)

/-- `ACQ.WSEL` (R144). -/
def execAcqWsel (s : State) : Result := selectAndStart s.cfg.chW s

/-- `ACQ.WDISC` (R145). -/
def execAcqWdisc (s : State) : Result := discardAndStart s

/-- `ACQ.WLATCH` (R146): `DW <- A.READ`. -/
def execAcqWlatch (s : State) : Result :=
  andThen (readResult s) fun t => .next (t.setCore { t.core with dw := t.core.res })

/-- `ACQ.ESEL` (R147). -/
def execAcqEsel (s : State) : Result := selectAndStart s.cfg.chE s

/-- `ACQ.EDISC` (R148). -/
def execAcqEdisc (s : State) : Result := discardAndStart s

/-- `ACQ.ELATCH_FSEL` (R149): `DE <- A.READ`, then `A.SEL(CH_F)` and `A.START`. -/
def execAcqElatchFsel (s : State) : Result :=
  match s.seq.part.val with
  | 0 => stage 1 (andThen (readResult s) fun t => .next (t.setCore { t.core with de := t.core.res }))
  | 1 => stage 2 (selectChannel s.cfg.chF s)
  | _ => stage 0 (startConversion s)

/-- `ACQ.FDISC` (R150). -/
def execAcqFdisc (s : State) : Result := discardAndStart s

/-- `ACQ.FLATCH` (R151): `DF <- A.READ`. -/
def execAcqFlatch (s : State) : Result :=
  andThen (readResult s) fun t => .next (t.setCore { t.core with df := t.core.res })

/-- `ACQ.NOP` (R152): nothing. -/
def execAcqNop (_band : BitVec 3) (_off : BitVec 5) (s : State) : Result := .next s

end Sys2Proof.Machine
end

