-- ==== Sys2Proof/Machine/Encoders.lean ====
section
/-! DEFINITION. The output encoder (45_output_encoder.md): packing by a pin map and the port writes. -/

namespace Sys2Proof.Machine

/-- The port word whose bits are the values of the pins (R222: `w[b]`). -/
def portWordOf (value : α → Bool) (m : PortMap α) : PortWord :=
  BitVec.ofBool (value m.b7) ++ BitVec.ofBool (value m.b6) ++ BitVec.ofBool (value m.b5) ++
    BitVec.ofBool (value m.b4) ++ BitVec.ofBool (value m.b3) ++ BitVec.ofBool (value m.b2) ++
    BitVec.ofBool (value m.b1) ++ BitVec.ofBool (value m.b0)

/-- One pin of `SINGLE` mode: 0 or a copy of a sample bit (R221, R223). -/
def singlePinValue (q : Sample) : SinglePin → Bool
  | .zero => false
  | .bit i => q.getLsbD i.val

/-- The sample of a channel. -/
def Samples.ofChannel (x : Samples) : Channel → Sample
  | .sine => x.sine
  | .tri => x.tri
  | .saw => x.saw
  | .pulse => x.pulse

/-- One pin of `QUAD` mode: 0 or a copy of a bit of one of the four samples (R223). -/
def quadPinValue (x : Samples) : QuadPin → Bool
  | .zero => false
  | .bit ch i => (x.ofChannel ch).getLsbD i.val

/-- The word of `SINGLE` mode (R221). -/
def singleWord (cfg : Config) (q : Sample) : PortWord := portWordOf (singlePinValue q) cfg.singlePinmap.pins

/-- The word of one port of `QUAD` mode (R222). -/
def quadWord (m : PortMap QuadPin) (x : Samples) : PortWord := portWordOf (quadPinValue x) m

/-- `ENC.SINGLE` (R221): one `D.WRITE`, to the port of `SINGLE_PINMAP`. -/
def execEncSingle (s : State) : Result :=
  memWritePort s.cfg.singlePinmap.port (singleWord s.cfg s.samples.mono) s

/-- `ENC.QUAD` (R222): three `D.WRITE`s, to ports 0, 1, 2 in this order, one at a time (D28, U17): between them the ports hold a
mixture. -/
def execEncQuad (s : State) : Result :=
  match s.seq.part.val with
  | 0 => stage 1 (memWritePort 0 (quadWord s.cfg.quadPinmap.p0 s.samples) s)
  | 1 => stage 2 (memWritePort 1 (quadWord s.cfg.quadPinmap.p1 s.samples) s)
  | _ => stage 0 (memWritePort 2 (quadWord s.cfg.quadPinmap.p2 s.samples) s)

end Sys2Proof.Machine
end

