-- ==== Sys2Proof/Machine/Generators.lean ====
section
/-! DEFINITION. The waveform synthesizer (43_waveform_synthesizer.md): the helpers `Saw`, `CSaw`, `XorShift` and the eight
generators. Each writes the frame's sample and, beside it, only the state its rule names. -/

namespace Sys2Proof.Machine

/-- `Saw(c) = (c / 2) mod 32 = c[5:1]` (R175). -/
def sawValue (c : Counter) : Sample := sawSlice c

/-- `CSaw(c)` (R177): 0 for `d < 16`, `d - 16` for `16 <= d < 48`, else 31, with `d = c mod 64`. -/
def csawValue (c : Counter) : Sample :=
  if clipSlice c < 16 then 0
  else if clipSlice c < 48 then (clipSlice c - 16).setWidth 5
  else 31

/-- The floor of the mean of two samples, by a 6-bit sum (R179, R180, D13). -/
def meanValue (a b : Sample) : Sample := ((a.setWidth 6 + b.setWidth 6) >>> 1).setWidth 5

/-- The next triangle amplitude (R173): the first condition is a conjunction, so at 0 with the direction bit set it rises. -/
def triNext (down : Bool) (t : Sample) : Sample :=
  if down ∧ 0 < t then t - 1
  else if t < 31 then t + 1
  else t

/-- `XorShift(x)` (R182). -/
def xorShift (a b c : Nat) (x : RngWord) : RngWord :=
  let x1 := x ^^^ (x <<< a)
  let x2 := x1 ^^^ (x1 >>> b)
  x2 ^^^ (x2 <<< c)

/-- `SINE` (R172): `MemRead(ST, CNT mod SINE_LEN) & 0x1F`. -/
def execSine (s : State) : Result :=
  memRead .st s.cfg.st (s.core.cnt.toNat % s.cfg.st.length) fun v =>
    .next (s.putSample ((v &&& 0x1F#8).setWidth 5))

/-- `TRI` (R173): updates `TRI`; the sample is the updated value. -/
def execTri (s : State) : Result :=
  .next ((s.setCore { s.core with tri := triNext (directionBit s.core.cnt) s.core.tri }).putSample
    (triNext (directionBit s.core.cnt) s.core.tri))

/-- `PULSE` (R176): 31 while `CNT mod SINE_LEN < t`, else 0. -/
def execPulse (s : State) : Result :=
  .next (s.putSample
    (if s.core.cnt.toNat % s.cfg.st.length < (pulseThreshold s.core.de).toNat then 31 else 0))

/-- `SAW` (R175). -/
def execSaw (s : State) : Result := .next (s.putSample (sawValue s.core.cnt))

/-- `SSAW` (R179). -/
def execSsaw (s : State) : Result :=
  .next (s.putSample (meanValue (sawValue s.core.cnt) (sawValue s.core.det)))

/-- `CSAW` (R178). -/
def execCsaw (s : State) : Result := .next (s.putSample (csawValue s.core.cnt))

/-- `CSSAW` (R180). -/
def execCssaw (s : State) : Result :=
  .next (s.putSample (meanValue (csawValue s.core.cnt) (csawValue s.core.det)))

/-- `NOISE` (R181): steps `RNG`; the sample is `RNG[4:0]` of the new state. -/
def execNoise (s : State) : Result :=
  .next ((s.setCore { s.core with rng := xorShift s.cfg.xsA s.cfg.xsB s.cfg.xsC s.core.rng }).putSample
    ((xorShift s.cfg.xsA s.cfg.xsB s.cfg.xsC s.core.rng).extractLsb' 0 5))

end Sys2Proof.Machine
end

