-- ==== Sys2Proof/Machine/Hal.lean ====
section
/-! DEFINITION. The HAL operations (46_hal_operations.md R240 to R250). -/

namespace Sys2Proof.Machine

/-- `T.INIT` (R240), in the reset sequence: `TCNT <- 0; MATCH <- 0; TPER <- P_INIT; TNXT <- P_INIT`, and the timer runs from here on. -/
def execTInit (s : State) : Result :=
  configure .timer ((s.setTimer
    { tcnt := 0, tper := s.cfg.pInit, tnxt := s.cfg.pInit, matchFlag := false, running := true }).emit .tInit) s

/-- `T.SETPER(v)` (R241). On operand 0 the fault records the index the frequency dial selects (log 21). -/
def execTSetper (v : Period) (s : State) : Result := setPeriod (pidxField s.core.df) v s

/-- `T.WAITCLR` (R242): spins, changing nothing, while `MATCH == 0` (00 R11 `spin until`); else clears it in the same step. -/
def execTWaitclr (s : State) : Result :=
  if s.timer.matchFlag then .next ((s.setTimer s.timer.clearMatch).emit .tWaitclr) else .next s

/-- `A.INIT` (R243), in the reset sequence: the flags, and free values for `ACH` and `ARES`, which "hold no defined value" (log 9). -/
def execAInit (s : State) : Result :=
  configure .adc (((s.setAdc
    (s.adc.initialised (Config.freeChannel s.env.draws) (Config.freeResult s.env.draws))).drew 1).emit .aInit) s

/-- `A.SEL(ch)` (R244). -/
def execASel (ch : ChannelId) (s : State) : Result := selectChannel ch s

/-- `A.START` (R245). -/
def execAStart (s : State) : Result := startConversion s

/-- `A.DONE` (R246). -/
def execADone (s : State) : Result := pollDone s

/-- `A.READ` (R247). -/
def execARead (s : State) : Result := readResult s

/-- The end of `A.READBLK` (R248): the poll that finds `ADONE` set, then `A.READ`; its own event when it completes. -/
def finishRead (s : State) : Result :=
  andThen (pollDone s) fun t =>
    andThen (readResult t) fun u =>
      .next ((u.setCore { u.core with rdblk := false }).emit (.aReadblk u.core.res))

/-- `A.READBLK` (R248): `A.START`, then spin until `ADONE`, then `A.READ` (log 11). -/
def execAReadblk (s : State) : Result :=
  if s.core.rdblk then
    if s.adc.adone then finishRead s else .next s
  else andThen (startConversion s) fun t => .next (t.setCore { t.core with rdblk := true })

/-- `D.INIT` (R249), in the reset sequence: the ports become outputs; each holds no defined value, so a free value (R42, U4, log 9). -/
def execDInit (s : State) : Result :=
  configure .ports (((s.setPorts
    { p0 := Config.freePort s.env.draws, p1 := Config.freePort (s.env.draws + 1),
      p2 := Config.freePort (s.env.draws + 2), outputs := true }).drew 3).emit .dInit) s

/-- `D.WRITE(p, v)` (R250). -/
def execDWrite (p : PortId) (v : PortWord) (s : State) : Result := memWritePort p v s

end Sys2Proof.Machine
end

