-- ==== Sys2Proof/Machine/Quantizers.lean ====
section
/-! DEFINITION. The effect processor (44_effect_processor.md): four quantizers of the frame's sample. None has state of its own (R210). -/

namespace Sys2Proof.Machine

/-- The sample indexes a quantization table (R212 to R214). The entry is written to the 5-bit sample (00 R9). -/
def quantizeBy (space : TableSpace) (q : List (BitVec 8)) (s : State) : Result :=
  memRead space q s.sample.toNat fun v => .next (s.putSample (v.setWidth 5))

/-- `QZ32` (R211): the identity; no table is read. -/
def execQz32 (s : State) : Result := .next (s.putSample s.sample)

/-- `QZ16` (R212). -/
def execQz16 (s : State) : Result := quantizeBy .q16 s.cfg.q16 s

/-- `QZ8` (R213). -/
def execQz8 (s : State) : Result := quantizeBy .q8 s.cfg.q8 s

/-- `QZ4` (R214). -/
def execQz4 (s : State) : Result := quantizeBy .q4 s.cfg.q4 s

end Sys2Proof.Machine
end

