-- ==== Sys2Proof/Machine/Scheduler.lean ====
section
/-! DEFINITION. The scheduler's own operations (41_frame_scheduler.md): the period reload and the frame counters. -/

namespace Sys2Proof.Machine

/-- `RELOAD` (R124): `T.SETPER(MemRead(PT, pidx))`. -/
def execReload (pidx : BitVec 9) (s : State) : Result :=
  memRead .pt s.cfg.pt pidx.toNat fun v => setPeriod pidx v s

/-- `ADV.HOLD` (R129): `CNT` advances, `DET` does not. -/
def execAdvHold (s : State) : Result :=
  .next (s.setCore { s.core with cnt := s.core.cnt + 1 })

/-- `ADV.INC` (R128): both counters advance; `skip` only selects the operation (30 R97). -/
def execAdvInc (_skip : BitVec 7) (s : State) : Result :=
  .next (s.setCore { s.core with det := s.core.det + 1, cnt := s.core.cnt + 1 })

end Sys2Proof.Machine
end

