-- ==== Sys2Proof/Syntax.lean ====
section
/-! DEFINITION. The operations of the block (00_scope.md rule R14, 30_encoding.md rules R99 and R100): one constructor
per row of spec/opcode_table.json, in the table's order, with the operands the row's fields give it. -/

namespace Sys2Proof

/-- An operation: a selectable one (R99) or a HAL operation (R100). Bits that R91 marks "ign" are no operands. -/
inductive Instr where
  /-- `SINE`, 43 R172 -/
  | sine
  /-- `TRI`, 43 R173 -/
  | tri
  /-- `PULSE`, 43 R176 -/
  | pulse
  /-- `SAW`, 43 R175 -/
  | saw
  /-- `SSAW`, 43 R179 -/
  | ssaw
  /-- `CSAW`, 43 R178 -/
  | csaw
  /-- `CSSAW`, 43 R180 -/
  | cssaw
  /-- `NOISE`, 43 R181 -/
  | noise
  /-- `QZ32`, 44 R211 -/
  | qz32
  /-- `QZ16`, 44 R212 -/
  | qz16
  /-- `QZ8`, 44 R213 -/
  | qz8
  /-- `QZ4`, 44 R214 -/
  | qz4
  /-- `RELOAD`, 41 R124; the period index of R95 -/
  | reload (pidx : BitVec 9)
  /-- `ACQ.WSEL`, 42 R144 -/
  | acqWsel
  /-- `ACQ.WDISC`, 42 R145 -/
  | acqWdisc
  /-- `ACQ.WLATCH`, 42 R146 -/
  | acqWlatch
  /-- `ACQ.ESEL`, 42 R147 -/
  | acqEsel
  /-- `ACQ.EDISC`, 42 R148 -/
  | acqEdisc
  /-- `ACQ.ELATCH_FSEL`, 42 R149 -/
  | acqElatchFsel
  /-- `ACQ.FDISC`, 42 R150 -/
  | acqFdisc
  /-- `ACQ.FLATCH`, 42 R151 -/
  | acqFlatch
  /-- `ACQ.NOP`, 42 R152; the fields `band` and `off` of R91, `off` not 0 -/
  | acqNop (band : BitVec 3) (off : BitVec 5)
  /-- `ADV.HOLD`, 41 R129 -/
  | advHold
  /-- `ADV.INC`, 41 R128; the field `skip` of R91, not 0 -/
  | advInc (skip : BitVec 7)
  /-- `ENC.SINGLE`, 45 R221 -/
  | encSingle
  /-- `ENC.QUAD`, 45 R222 -/
  | encQuad
  /-- `T.INIT`, 46 R240 -/
  | tInit
  /-- `T.SETPER(v)`, 46 R241 -/
  | tSetper (v : Period)
  /-- `T.WAITCLR`, 46 R242 -/
  | tWaitclr
  /-- `A.INIT`, 46 R243 -/
  | aInit
  /-- `A.SEL(ch)`, 46 R244 -/
  | aSel (ch : ChannelId)
  /-- `A.START`, 46 R245 -/
  | aStart
  /-- `A.DONE`, 46 R246 -/
  | aDone
  /-- `A.READ`, 46 R247 -/
  | aRead
  /-- `A.READBLK`, 46 R248 -/
  | aReadblk
  /-- `D.INIT`, 46 R249 -/
  | dInit
  /-- `D.WRITE(p, v)`, 46 R250 -/
  | dWrite (p : PortId) (v : PortWord)
deriving DecidableEq, Repr

end Sys2Proof
end

