-- ==== Sys2Proof/Machine/Dispatch.lean ====
section
/-! DEFINITION. The dispatch: one arm per operation, each one call of its meaning. -/

namespace Sys2Proof.Machine

def exec (i : Instr) (s : State) : Host.Outcome State Fault Refusal :=
  match i with
  | .sine => Sys2Proof.Machine.execSine s
  | .tri => Sys2Proof.Machine.execTri s
  | .pulse => Sys2Proof.Machine.execPulse s
  | .saw => Sys2Proof.Machine.execSaw s
  | .ssaw => Sys2Proof.Machine.execSsaw s
  | .csaw => Sys2Proof.Machine.execCsaw s
  | .cssaw => Sys2Proof.Machine.execCssaw s
  | .noise => Sys2Proof.Machine.execNoise s
  | .qz32 => Sys2Proof.Machine.execQz32 s
  | .qz16 => Sys2Proof.Machine.execQz16 s
  | .qz8 => Sys2Proof.Machine.execQz8 s
  | .qz4 => Sys2Proof.Machine.execQz4 s
  | .reload pidx => Sys2Proof.Machine.execReload pidx s
  | .acqWsel => Sys2Proof.Machine.execAcqWsel s
  | .acqWdisc => Sys2Proof.Machine.execAcqWdisc s
  | .acqWlatch => Sys2Proof.Machine.execAcqWlatch s
  | .acqEsel => Sys2Proof.Machine.execAcqEsel s
  | .acqEdisc => Sys2Proof.Machine.execAcqEdisc s
  | .acqElatchFsel => Sys2Proof.Machine.execAcqElatchFsel s
  | .acqFdisc => Sys2Proof.Machine.execAcqFdisc s
  | .acqFlatch => Sys2Proof.Machine.execAcqFlatch s
  | .acqNop band off => Sys2Proof.Machine.execAcqNop band off s
  | .advHold => Sys2Proof.Machine.execAdvHold s
  | .advInc skip => Sys2Proof.Machine.execAdvInc skip s
  | .encSingle => Sys2Proof.Machine.execEncSingle s
  | .encQuad => Sys2Proof.Machine.execEncQuad s
  | .tInit => Sys2Proof.Machine.execTInit s
  | .tSetper v => Sys2Proof.Machine.execTSetper v s
  | .tWaitclr => Sys2Proof.Machine.execTWaitclr s
  | .aInit => Sys2Proof.Machine.execAInit s
  | .aSel ch => Sys2Proof.Machine.execASel ch s
  | .aStart => Sys2Proof.Machine.execAStart s
  | .aDone => Sys2Proof.Machine.execADone s
  | .aRead => Sys2Proof.Machine.execARead s
  | .aReadblk => Sys2Proof.Machine.execAReadblk s
  | .dInit => Sys2Proof.Machine.execDInit s
  | .dWrite p v => Sys2Proof.Machine.execDWrite p v s

end Sys2Proof.Machine
end

