-- ==== Sys2Proof/WellFormed.lean ====
section
/-! DEFINITION. Which terms of `Instr` stand for an operation of the table: the constraints of the rows whose field values
are not all admitted (30_encoding.md rule R99, 20_memory.md rule R73). -/

namespace Sys2Proof

/-- The checks: `ACQ.NOP` has `off != 0` and `ADV.INC` has `skip != 0` (R99, the table's "constraint"), and a port
identifier is 0, 1 or 2 (R73). Every other operand value is admitted (R101). -/
def Instr.wf : Instr → Bool
  | .acqNop _ off => off != 0
  | .advInc skip => skip != 0
  | .dWrite p _ => p != 3
  | .sine | .tri | .pulse | .saw | .ssaw | .csaw | .cssaw | .noise => true
  | .qz32 | .qz16 | .qz8 | .qz4 => true
  | .reload _ => true
  | .acqWsel | .acqWdisc | .acqWlatch | .acqEsel | .acqEdisc | .acqElatchFsel | .acqFdisc | .acqFlatch => true
  | .advHold => true
  | .encSingle | .encQuad => true
  | .tInit | .tSetper _ | .tWaitclr => true
  | .aInit | .aSel _ | .aStart | .aDone | .aRead | .aReadblk => true
  | .dInit => true

end Sys2Proof
end

