-- ==== Sys2Proof/Decode.lean ====
section
/-! DEFINITION. Decoding and encoding (30_encoding.md). The block decodes selector words that lie in its own registers (R14,
R90); the map from a word to its operation is R99, total and without traps (R101). HAL operations carry no bits in the
spec; their numbers are those of R100 (D31) and the places of their operands are the model's (log 15). -/

namespace Sys2Proof

/-- The formats of R90. -/
inductive Format where
  | wsel | esel | fsel | aph | adv | cfg | hal
deriving DecidableEq, Repr

/-- A word handed to the decoder, with the format it is decoded in (R90). `quad` is the build-time selection of one of the
four generators of a `QUAD` frame (43 R190: "does not dispatch on `DW`"). -/
inductive Selector where
  | wsel (w : Dial)
  | esel (w : Dial)
  | fsel (w : Dial)
  | aph (w : BitVec 8)
  | adv (w : BitVec 7)
  | cfg (m : OutputMode)
  | quad (ch : Channel)
  | hal (w : BitVec 20)
deriving DecidableEq, Repr

/-- Why a word is no operation. Only HAL words can be none (R101). -/
inductive DecodeError where
  /-- a HAL number above 10 (R100 names 0 to 10) -/
  | unknownHalCode (code : BitVec 4)
  /-- operand bits that the HAL operation does not have are not 0, or the port identifier is 3 (R73) -/
  | badHalOperand (code : BitVec 4)
deriving DecidableEq, Repr

def Selector.format : Selector → Format
  | .wsel _ => .wsel
  | .esel _ => .esel
  | .fsel _ => .fsel
  | .aph _ => .aph
  | .adv _ => .adv
  | .cfg _ => .cfg
  | .quad _ => .cfg
  | .hal _ => .hal

/-- The format column of R99 and R100. -/
def Instr.format : Instr → Format
  | .sine | .tri | .pulse | .saw | .ssaw | .csaw | .cssaw | .noise => .wsel
  | .qz32 | .qz16 | .qz8 | .qz4 => .esel
  | .reload _ => .fsel
  | .acqWsel | .acqWdisc | .acqWlatch | .acqEsel | .acqEdisc | .acqElatchFsel | .acqFdisc | .acqFlatch => .aph
  | .acqNop _ _ => .aph
  | .advHold | .advInc _ => .adv
  | .encSingle | .encQuad => .cfg
  | .tInit | .tSetper _ | .tWaitclr => .hal
  | .aInit | .aSel _ | .aStart | .aDone | .aRead | .aReadblk => .hal
  | .dInit | .dWrite _ _ => .hal

/-- The variant a code selects (R92). -/
def VariantCode.variantOf (m : VariantCode) (code : BitVec 3) : Variant :=
  match code.toNat with
  | 0 => m.c0
  | 1 => m.c1
  | 2 => m.c2
  | 3 => m.c3
  | 4 => m.c4
  | 5 => m.c5
  | 6 => m.c6
  | _ => m.c7

/-- The first code that selects a variant, if one does. -/
def VariantCode.codeOf (m : VariantCode) (v : Variant) : Option (BitVec 3) :=
  if m.c0 = v then some 0
  else if m.c1 = v then some 1
  else if m.c2 = v then some 2
  else if m.c3 = v then some 3
  else if m.c4 = v then some 4
  else if m.c5 = v then some 5
  else if m.c6 = v then some 6
  else if m.c7 = v then some 7
  else none

/-- D1: "a bijection from 0..7 to the eight variants"; eight distinct values of eight. -/
def VariantCode.bijective (m : VariantCode) : Bool :=
  decide [m.c0, m.c1, m.c2, m.c3, m.c4, m.c5, m.c6, m.c7].Nodup

/-- The generator operation of a variant (R103: the mnemonics are formed from the variants' names). -/
def Variant.generator : Variant → Instr
  | .sine => .sine
  | .triangle => .tri
  | .pulse => .pulse
  | .saw => .saw
  | .superSaw => .ssaw
  | .clippedSaw => .csaw
  | .clippedSuperSaw => .cssaw
  | .noise => .noise

/-- The generator of a `QUAD` channel (43 R190). -/
def Channel.generator : Channel → Instr
  | .sine => .sine
  | .tri => .tri
  | .saw => .saw
  | .pulse => .pulse

/-- The quantizer of a level (R99, 44 R210). -/
def quantizerOf (level : BitVec 2) : Instr :=
  match level.toNat with
  | 0 => .qz32
  | 1 => .qz16
  | 2 => .qz8
  | _ => .qz4

/-- The acquisition operation of `CNT[7:0]` (R96, 42 R143): a phase operation only where `off == 0`. -/
def acquisitionOf (b : BitVec 8) : Instr :=
  if offField b = 0 then
    match (bandField b).toNat with
    | 0 => .acqWsel
    | 1 => .acqWdisc
    | 2 => .acqWlatch
    | 3 => .acqEsel
    | 4 => .acqEdisc
    | 5 => .acqElatchFsel
    | 6 => .acqFdisc
    | _ => .acqFlatch
  else .acqNop (bandField b) (offField b)

/-- The counter operation of `CNT[6:0]` (R97). -/
def advanceOf (k : BitVec 7) : Instr :=
  if k = 0 then .advHold else .advInc k

/-- The encoder operation of the build (R99, 45 R220). -/
def OutputMode.encoder : OutputMode → Instr
  | .single => .encSingle
  | .quad => .encQuad

/-- A HAL word: the number of R100 in bits 3:0, the operand in bits 19:4 (log 15). -/
def halWord (code : BitVec 4) (operand : BitVec 16) : BitVec 20 := operand ++ code

def halCodeField (w : BitVec 20) : BitVec 4 := w.extractLsb' 0 4

def halOperandField (w : BitVec 20) : BitVec 16 := w.extractLsb' 4 16

/-- An operation with no operand: the operand bits are 0. -/
def halPlain (code : BitVec 4) (operand : BitVec 16) (i : Instr) : Except DecodeError Instr :=
  if operand = 0 then .ok i else .error (.badHalOperand code)

/-- `A.SEL`: the channel in operand bits 3:0, the others 0. -/
def halSelect (code : BitVec 4) (operand : BitVec 16) : Except DecodeError Instr :=
  if operand.extractLsb' 4 12 = 0 then .ok (.aSel (operand.extractLsb' 0 4)) else .error (.badHalOperand code)

/-- `D.WRITE`: the word in operand bits 7:0, the port in bits 9:8, the others 0. -/
def halWrite (code : BitVec 4) (operand : BitVec 16) : Except DecodeError Instr :=
  if operand.extractLsb' 10 6 = 0 ∧ operand.extractLsb' 8 2 ≠ 3 then
    .ok (.dWrite (operand.extractLsb' 8 2) (operand.extractLsb' 0 8))
  else .error (.badHalOperand code)

/-- The operation of a HAL word, by the numbers of R100. -/
def decodeHal (w : BitVec 20) : Except DecodeError Instr :=
  match (halCodeField w).toNat with
  | 0 => halPlain (halCodeField w) (halOperandField w) .tInit
  | 1 => .ok (.tSetper (halOperandField w))
  | 2 => halPlain (halCodeField w) (halOperandField w) .tWaitclr
  | 3 => halPlain (halCodeField w) (halOperandField w) .aInit
  | 4 => halSelect (halCodeField w) (halOperandField w)
  | 5 => halPlain (halCodeField w) (halOperandField w) .aStart
  | 6 => halPlain (halCodeField w) (halOperandField w) .aDone
  | 7 => halPlain (halCodeField w) (halOperandField w) .aRead
  | 8 => halPlain (halCodeField w) (halOperandField w) .aReadblk
  | 9 => halPlain (halCodeField w) (halOperandField w) .dInit
  | 10 => halWrite (halCodeField w) (halOperandField w)
  | _ => .error (.unknownHalCode (halCodeField w))

/-- The operation map of R99 and R100. -/
def decode (cfg : Config) : Selector → Except DecodeError Instr
  | .wsel w => .ok (cfg.variantCode.variantOf (variantField w)).generator
  | .esel w => .ok (quantizerOf (levelField w))
  | .fsel w => .ok (.reload (pidxField w))
  | .aph b => .ok (acquisitionOf b)
  | .adv k => .ok (advanceOf k)
  | .cfg m => .ok m.encoder
  | .quad ch => .ok ch.generator
  | .hal w => decodeHal w

/-- The `WSEL` word of a variant: `code << 7` (R99), its don't-care bits 0. -/
def variantWord (cfg : Config) (v : Variant) : Dial :=
  ((cfg.variantCode.codeOf v).getD 0) ++ 0#7

/-- The `ESEL` word of a level, its other bits 0. -/
def levelWord (level : BitVec 2) : Dial := level ++ 0#8

/-- The `APH` word of a band with `off == 0` (R96: 0x00, 0x20, ... 0xE0). -/
def phaseWord (band : BitVec 3) : BitVec 8 := band ++ 0#5

/-- The encoder: the word of each operation, from the same map (R99, R100). Don't-care bits are written as 0. -/
def encode (cfg : Config) : Instr → Selector
  | .sine => .wsel (variantWord cfg .sine)
  | .tri => .wsel (variantWord cfg .triangle)
  | .pulse => .wsel (variantWord cfg .pulse)
  | .saw => .wsel (variantWord cfg .saw)
  | .ssaw => .wsel (variantWord cfg .superSaw)
  | .csaw => .wsel (variantWord cfg .clippedSaw)
  | .cssaw => .wsel (variantWord cfg .clippedSuperSaw)
  | .noise => .wsel (variantWord cfg .noise)
  | .qz32 => .esel (levelWord 0)
  | .qz16 => .esel (levelWord 1)
  | .qz8 => .esel (levelWord 2)
  | .qz4 => .esel (levelWord 3)
  | .reload pidx => .fsel (pidx ++ 0#1)
  | .acqWsel => .aph (phaseWord 0)
  | .acqWdisc => .aph (phaseWord 1)
  | .acqWlatch => .aph (phaseWord 2)
  | .acqEsel => .aph (phaseWord 3)
  | .acqEdisc => .aph (phaseWord 4)
  | .acqElatchFsel => .aph (phaseWord 5)
  | .acqFdisc => .aph (phaseWord 6)
  | .acqFlatch => .aph (phaseWord 7)
  | .acqNop band off => .aph (band ++ off)
  | .advHold => .adv 0
  | .advInc skip => .adv skip
  | .encSingle => .cfg .single
  | .encQuad => .cfg .quad
  | .tInit => .hal (halWord 0 0)
  | .tSetper v => .hal (halWord 1 v)
  | .tWaitclr => .hal (halWord 2 0)
  | .aInit => .hal (halWord 3 0)
  | .aSel ch => .hal (halWord 4 (ch.setWidth 16))
  | .aStart => .hal (halWord 5 0)
  | .aDone => .hal (halWord 6 0)
  | .aRead => .hal (halWord 7 0)
  | .aReadblk => .hal (halWord 8 0)
  | .dInit => .hal (halWord 9 0)
  | .dWrite p v => .hal (halWord 10 ((p ++ v).setWidth 16))

/-- The selector that a bare word of the table is read as (log 16). A table word does not name its format, and `DW`, `DE` and
`DF` have one width: a 10-bit word is read as `DW`, an 8-bit word as `CNT[7:0]`, a 7-bit word as `CNT[6:0]`.
Widths are also taken rounded up to bytes, where 8 stands for the acquisition word. A word too wide for its
register is none. -/
def tableSelector (nbits w : Nat) : Option Selector :=
  if nbits = 10 ∨ nbits = 16 then
    if w < 1024 then some (.wsel (BitVec.ofNat 10 w)) else none
  else if nbits = 8 then
    if w < 256 then some (.aph (BitVec.ofNat 8 w)) else none
  else if nbits = 7 then
    if w < 128 then some (.adv (BitVec.ofNat 7 w)) else none
  else none

/-- The operation the decoder reads from a bare word of the table, under the default `VARIANT_CODE` that the table's
`match` values assume (R99). -/
def decodeTableWord (nbits w : Nat) : Option Instr :=
  match tableSelector nbits w with
  | none => none
  | some sel => (decode Config.default sel).toOption

end Sys2Proof
end

