-- ==== Sys2Proof/Machine/GoodConfig.lean ====
section
/-! DEFINITION. `GOOD_CONFIG` (70_reset_and_hazards.md R320): the constraints on the parameters, as 60 R272 code 5 lists them, with
those of 20_memory.md R64 and R67 and of decisions D1, D8, D17 and the contract of 45 R223 (log 22). -/

namespace Sys2Proof

/-- `l[0] >= l[1] >= ...` -/
def nonIncreasing : List (BitVec w) → Bool
  | [] => true
  | [_] => true
  | a :: b :: t => decide (b ≤ a) && nonIncreasing (b :: t)

/-- `l[0] <= l[1] <= ...` -/
def nonDecreasing : List (BitVec w) → Bool
  | [] => true
  | [_] => true
  | a :: b :: t => decide (a ≤ b) && nonDecreasing (b :: t)

/-- How many different values a list holds. -/
def distinctCount : List (BitVec w) → Nat
  | [] => 0
  | a :: t => (if t.contains a then 0 else 1) + distinctCount t

/-- R67: `Q[Q[s]] == Q[s]` for every entry. -/
def idempotentTable (q : List (BitVec 8)) : Bool :=
  q.all fun v => q[v.toNat]? == some v

/-- R67: 32 entries in 0..31, idempotent, monotone, at most `n` different values. -/
def goodQuantTable (n : Nat) (q : List (BitVec 8)) : Bool :=
  decide (q.length = 32) && q.all (fun v => decide (v < 32#8)) && idempotentTable q && nonDecreasing q
    && decide (distinctCount q ≤ n)

/-- R64: 512 entries, monotone in one direction, each at least 1. -/
def goodPeriodTable (pt : List Period) : Bool :=
  decide (pt.length = 512) && (nonIncreasing pt || nonDecreasing pt) && pt.all (fun v => decide (v ≠ 0#16))

/-- R182: a shift amount is in 1..31. -/
def goodShift (n : Nat) : Bool := decide (1 ≤ n) && decide (n ≤ 31)

/-- The pins of one port, most significant first. -/
def PortMap.pins (m : PortMap α) : List α := [m.b7, m.b6, m.b5, m.b4, m.b3, m.b2, m.b1, m.b0]

/-- How many pins carry a bit of channel `ch`.
DESIGN CHOICE (log 22): R223 does not say whether the "several bits" and the "single bit" of a channel are output pins or distinct
sample bits; pins are counted, a sample bit on two pins twice. -/
def countChannel (ch : Channel) : List QuadPin → Nat
  | [] => 0
  | .zero :: t => countChannel ch t
  | .bit c _ :: t => (if c = ch then 1 else 0) + countChannel ch t

/-- R223: a channel "carried as a single bit": exactly one pin carries one of its bits. That pins count and not distinct sample bits
is a DESIGN CHOICE (log 22): a flag bit copied to two pins is refused. -/
def QuadPinmap.singleBit (m : QuadPinmap) (ch : Channel) : Bool :=
  decide (countChannel ch (m.p0.pins ++ m.p1.pins ++ m.p2.pins) = 1)

/-- R223: a channel "carried with several bits" and "split across words": at least two words have a pin with one of its bits. That
pins count and not distinct sample bits is a DESIGN CHOICE (log 22): one sample bit copied into two words passes. -/
def QuadPinmap.splitBits (m : QuadPinmap) (ch : Channel) : Bool :=
  decide (2 ≤ ([m.p0, m.p1, m.p2].filter fun p => decide (1 ≤ countChannel ch p.pins)).length)

/-- R223: two channels are split across words, two are single bits. -/
def QuadPinmap.contract (m : QuadPinmap) : Bool :=
  decide (([Channel.sine, .tri, .saw, .pulse].filter m.singleBit).length = 2) &&
  decide (([Channel.sine, .tri, .saw, .pulse].filter m.splitBits).length = 2)

/-- The constraint of each named parameter. The ports in use are at most the three of 20 R73 (log 19), and all three in `QUAD` mode,
whose map has three words (45 R223). -/
def Config.meets (cfg : Config) : Param → Bool
  | .seed => decide (cfg.seed ≠ 0)
  | .xsA => goodShift cfg.xsA
  | .xsB => goodShift cfg.xsB
  | .xsC => goodShift cfg.xsC
  | .sineLen => decide (cfg.st.length ≠ 0)
  | .st => cfg.st.all fun v => decide (v < 32#8)
  | .q16 => goodQuantTable 16 cfg.q16
  | .q8 => goodQuantTable 8 cfg.q8
  | .q4 => goodQuantTable 4 cfg.q4
  | .pt => goodPeriodTable cfg.pt
  | .channels => decide (cfg.chW ≠ cfg.chE) && decide (cfg.chW ≠ cfg.chF) && decide (cfg.chE ≠ cfg.chF)
  | .variantCode => cfg.variantCode.bijective
  | .pInit => decide (cfg.pInit ≠ 0)
  | .nPorts =>
    match cfg.outputMode with
    | .single => decide (1 ≤ cfg.nPorts) && decide (cfg.nPorts ≤ 3)
    | .quad => decide (cfg.nPorts = 3)
  | .singlePinmap => decide (cfg.outputMode = .quad) || decide (cfg.singlePinmap.port.toNat < cfg.nPorts)
  | .quadPinmap => decide (cfg.outputMode = .single) || cfg.quadPinmap.contract

/-- The parameters in the order they are checked: that of 60 R272, then the model's additions. -/
def checkedParams : List Param :=
  [.seed, .xsA, .xsB, .xsC, .sineLen, .st, .q16, .q8, .q4, .pt, .channels, .variantCode, .pInit, .nPorts,
    .singlePinmap, .quadPinmap]

/-- The first parameter that violates its constraint (60 R272 code 5 "the parameter's name"). -/
def Config.firstBad (cfg : Config) : Option Param := checkedParams.find? fun p => !cfg.meets p

/-- `GOOD_CONFIG` (70 R320). -/
def Config.good (cfg : Config) : Bool := cfg.firstBad.isNone

end Sys2Proof
end

