-- ==== Sys2Proof/Machine/Sequencer.lean ====
section
/-! DEFINITION. The core's fixed sequence: which operation it issues at each position (41_frame_scheduler.md R123, 70 R301), when that
operation is complete, and where the core goes next. -/

namespace Sys2Proof.Machine

/-- The operations of the reset sequence, in the order of 70 R301. At `regs` the core writes its own registers and issues none. -/
def bootOperation (cfg : Config) : BootStep → Option Instr
  | .dInit => some .dInit
  | .aInit => some .aInit
  | .tInit => some .tInit
  | .regs => none
  | .selW => some (.aSel cfg.chW)
  | .discW => some .aReadblk
  | .keepW => some .aReadblk
  | .selE => some (.aSel cfg.chE)
  | .discE => some .aReadblk
  | .keepE => some .aReadblk
  | .selF => some (.aSel cfg.chF)
  | .discF => some .aReadblk
  | .keepF => some .aReadblk

/-- The selector word the core decodes at its position (30 R90, 41 R123). A HAL operation is issued by its word. In `QUAD`
mode the `SYNTH` step does not decode `DW` (43 R190). -/
def State.selector (s : State) : Option Selector :=
  match s.seq.fstep with
  | .boot => (bootOperation s.cfg s.seq.boot).map (encode s.cfg)
  | .wait => some (encode s.cfg .tWaitclr)
  | .reload => some (.fsel s.core.df)
  | .synth =>
    match s.cfg.outputMode with
    | .single => some (.wsel s.core.dw)
    | .quad => some (.quad s.seq.chan)
  | .effect => some (.esel s.core.de)
  | .encode => some (.cfg s.cfg.outputMode)
  | .acq => some (.aph (acqWord s.core.cnt))
  | .advance => some (.adv (skipField s.core.cnt))

/-- How many HAL operations an operation is (42 R144 to R151, 45 R222), each a step of its own (D28, log 10). -/
def halSteps (i : Instr) : Nat :=
  match i with
  | .acqWsel | .acqWdisc | .acqEsel | .acqEdisc | .acqFdisc => 2
  | .acqElatchFsel | .encQuad => 3
  | _ => 1

/-- Whether the operation is complete when it returns from this state. The two operations that wait may go on spinning (46 R242,
R248): `A.READBLK` is complete when it polls and finds `ADONE` set. A composite operation is complete with its last HAL operation. -/
def completes (i : Instr) (s : State) : Bool :=
  match i with
  | .tWaitclr => s.timer.matchFlag
  | .aReadblk => s.core.rdblk && s.adc.adone
  | i => decide (halSteps i ≤ s.seq.part.val + 1)

/-- The next position in the reset sequence (70 R301). -/
def BootStep.after : BootStep → BootStep
  | .dInit => .aInit
  | .aInit => .tInit
  | .tInit => .regs
  | .regs => .selW
  | .selW => .discW
  | .discW => .keepW
  | .keepW => .selE
  | .selE => .discE
  | .discE => .keepE
  | .keepE => .selF
  | .selF => .discF
  | .discF => .keepF
  | .keepF => .dInit

/-- The order of the four samples of a `QUAD` frame (43 R190; log 14). -/
def channelAfter : Channel → Channel
  | .sine => .tri
  | .tri => .saw
  | .saw => .pulse
  | .pulse => .sine

/-- Where the sequencer stands after a complete operation (10 R27, 41 R123). In `QUAD` mode `SYNTH` and `EFFECT` are run once for
each channel. -/
def Sequencer.after (mode : OutputMode) (q : Sequencer) : Sequencer :=
  match q.fstep with
  | .boot =>
    match q.boot with
    | .keepF => { q with fstep := .wait, boot := .dInit }
    | b => { q with boot := b.after }
  | .wait => { q with fstep := .reload }
  | .reload => { q with fstep := .synth }
  | .synth =>
    match mode, q.chan with
    | .single, _ => { q with fstep := .effect }
    | .quad, .pulse => { q with fstep := .effect, chan := .sine }
    | .quad, ch => { q with chan := channelAfter ch }
  | .effect =>
    match mode, q.chan with
    | .single, _ => { q with fstep := .encode }
    | .quad, .pulse => { q with fstep := .encode, chan := .sine }
    | .quad, ch => { q with chan := channelAfter ch }
  | .encode => { q with fstep := .acq }
  | .acq => { q with fstep := .advance }
  | .advance => { q with fstep := .wait }

/-- The dial a kept boot read is written to (70 R301, `BOOTREAD` of 30 R104). -/
def bootLatch (b : BootStep) (c : CoreRegs) : CoreRegs :=
  match b with
  | .keepW => { c with dw := c.res }
  | .keepE => { c with de := c.res }
  | .keepF => { c with df := c.res }
  | _ => c

/-- The core goes on to its next position; in the reset sequence a kept read is latched on the way. -/
def State.advance (s : State) : State :=
  match s.seq.fstep with
  | .boot => (s.setCore (bootLatch s.seq.boot s.core)).setSeq (s.seq.after s.cfg.outputMode)
  | _ => s.setSeq (s.seq.after s.cfg.outputMode)

/-- The step of the reset sequence that writes the core registers (70 R301). -/
def bootRegisters (s : State) : State :=
  s.setCore { s.core with cnt := 0, det := 0, tri := s.cfg.triInit, rng := s.cfg.seed }

/-- Before the first operation of the reset sequence the parameters are checked (60 R272 code 5, 70 R302; log 22). -/
def State.configFault (s : State) : Option Param :=
  match s.seq.fstep, s.seq.boot with
  | .boot, .dInit => s.cfg.firstBad
  | _, _ => none

/-- Run an operation and, where it is complete, go on. -/
def issue (i : Instr) (s : State) : Result :=
  andThen (exec i s) fun t => .next (if completes i s then t.advance else t)

/-- One step of the core: the operation that its selector word decodes to (41 R123). -/
def coreStep (s : State) : Result :=
  match s.configFault with
  | some p => .fault (.badConfig p)
  | none =>
    match s.selector with
    | none => .next (bootRegisters s).advance
    | some sel =>
      match decode s.cfg sel with
      | .ok i => issue i s
      | .error _ => .refused .undecodable

/-- The step of whoever moves (10 R20). -/
def moveStep (m : Move) (s : State) : Result :=
  match m with
  | .core => coreStep s
  | .timerClock => timerClock s
  | .timerMatch => timerMatch s
  | .adcComplete ain residual => adcComplete ain residual s
  | .reset => .next (resetEvent s)

/-- Put a bare word of the table where the core decodes it next, and give the core the next move (log 16): the dial or the
counter's low bits hold the word, the sequencer stands at the beginning of the step that decodes it, and for a 10-bit word the block is a `SINGLE`
build with the default `VARIANT_CODE`. -/
def placeSelector (sel : Selector) (s : State) : State :=
  let s := s.setEnv { s.env with script := .core :: s.env.script }
  match sel with
  | .wsel w =>
    { s with
      cfg := { s.cfg with outputMode := .single, variantCode := Config.default.variantCode }
      core := { s.core with dw := w }
      seq := { s.seq with fstep := .synth, part := 0 } }
  | .aph b => (s.setCore { s.core with cnt := s.core.cnt.extractLsb' 8 8 ++ b }).setSeq { s.seq with fstep := .acq, part := 0 }
  | .adv k => (s.setCore { s.core with cnt := s.core.cnt.extractLsb' 7 9 ++ k }).setSeq { s.seq with fstep := .advance, part := 0 }
  | .esel w => (s.setCore { s.core with de := w }).setSeq { s.seq with fstep := .effect, part := 0 }
  | .fsel w => (s.setCore { s.core with df := w }).setSeq { s.seq with fstep := .reload, part := 0 }
  | .cfg .single => { s with cfg := { s.cfg with outputMode := .single }, seq := { s.seq with fstep := .encode, part := 0 } }
  | .cfg .quad =>
    { s with cfg := { s.cfg with outputMode := .quad, nPorts := 3 }, seq := { s.seq with fstep := .encode, part := 0 } }
  | .quad ch =>
    { s with
      cfg := { s.cfg with outputMode := .quad, nPorts := 3 }
      seq := { s.seq with fstep := .synth, chan := ch, part := 0 } }
  | .hal _ => s

end Sys2Proof.Machine
end

