-- ==== Sys2Proof/Machine/Step.lean ====
section
/-! DEFINITION. One step of the block: the next move is taken and its agent moves (10_state.md R20, decisions D18 and D28). -/

namespace Sys2Proof.Machine

/-- One step. It has three outcomes: a next state, a model-level fault (60 R272), a refusal. -/
def step (s : State) : Host.Outcome State Fault Refusal := moveStep s.nextMove s.afterMove

/-- `s` with a bare word of the table placed where the very next step decodes and runs it (log 16). -/
def State.withFetchWord (s : State) (nbits w : Nat) : State :=
  match tableSelector nbits w with
  | some sel => placeSelector sel s
  | none => s

end Sys2Proof.Machine
end

