-- ==== Sys2Proof/Safety.lean ====
section
/-! DEFINITION. What counts as a safe run, and the words the statements use: the named premises of 70_reset_and_hazards.md R320, the
invariant of the machine, frames (what an operation leaves alone), and runs of several steps. -/

namespace Sys2Proof.Machine

/-! ### Runs -/

/-- `n` steps, stopping at the first fault or refusal. -/
def run : Nat → State → Result
  | 0, s => .next s
  | n + 1, s => andThen (step s) (run n)

/-- `n` untimed match steps in a row (41 R122). -/
def matchSteps : Nat → State → Result
  | 0, s => .next s
  | n + 1, s => andThen (timerMatch s) (matchSteps n)

/-- A run without end in which no step stops (`NO_FAULT`, 70 R320), under the schedule `ms`: the `n`-th move is `ms n`, and each step is
the one that `step` runs for that move (log 5; a script in State is finite, a schedule is not). -/
def isRun (ms : Nat → Move) (r : Nat → State) : Prop := ∀ n, moveStep (ms n) (r n) = .next (r (n + 1))

/-- A script that gives the core `n` moves. -/
def coreMoves (n : Nat) : List Move := List.replicate n .core

/-! ### Premises (R320) -/

/-- `GOOD_CONFIG`. -/
def GoodConfig (s : State) : Prop := s.cfg.good = true

/-- The acquisition words whose operation begins with `A.READ` (42 R145 to R151). -/
def readingWord (b : BitVec 8) : Bool :=
  match acquisitionOf b with
  | .acqWdisc | .acqWlatch | .acqEdisc | .acqElatchFsel | .acqFdisc | .acqFlatch => true
  | _ => false

/-- `ADC_FAST` (42 R155) at the move `m` in the state `s`: where the core's move is the `A.READ` of the frame's acquisition operation, the
conversion is done. Before that move the ADC may still complete.
DESIGN CHOICE (log 31): R155 words the premise for the reads of a frame alone, 93 U18 has it exclude an `A.READBLK` that spins for
ever too; the model takes R155's words, so in the reset sequence it asks for nothing. -/
def AdcFast (m : Move) (s : State) : Prop :=
  m = .core → s.seq.fstep = .acq → s.seq.part = 0 → readingWord (acqWord s.core.cnt) = true → s.adc.adone = true

/-- The move `m` in the state `s` is a match of the timer: the untimed one (41 R122), or the clock that reaches the active period
(41 R121). -/
def isMatch (m : Move) (s : State) : Prop :=
  s.timer.running = true ∧
    (m = .timerMatch ∨ m = .timerClock ∧ s.timer.tper ≠ 0 ∧ s.timer.tcnt + 1 = s.timer.tper)

/-- `TIMER_FAIR` (41 R122, 70 R318) of a run: the timer matches infinitely often. -/
def TimerFair (ms : Nat → Move) (r : Nat → State) : Prop := ∀ n, ∃ m, n ≤ m ∧ isMatch (ms m) (r m)

/-- The core moves infinitely often. The spec takes this for granted: its core is always ready to take its next step (41 R123,
"for ever"). As a premise of its own it is the model's (log 30). -/
def CoreFair (ms : Nat → Move) : Prop := ∀ n, ∃ m, n ≤ m ∧ ms m = .core

/-- The history after the last reset event (10 R48). -/
def sinceReset : List Event → List Event
  | [] => []
  | e :: es => if es.contains .reset then sinceReset es else if e = .reset then es else e :: es

/-- Whether an event is a HAL operation of the core and not a step of another agent (10 R48). -/
def isCoreEvent : Event → Bool
  | .timerMatch | .adcComplete _ | .reset => false
  | _ => true

/-- The core's events while one dial is read in the reset sequence: `x` is discarded, `v` kept (70 R301; those of the parts of a
blocking read are the model's, log 11). -/
def dialEvents (ch : ChannelId) (x v : Dial) : List Event :=
  [.aSel ch, .aStart, .aDone true, .aRead x, .aReadblk x, .aStart, .aDone true, .aRead v, .aReadblk v]

/-- The core's events of the reset sequence in order (70 R301). -/
def bootEvents (cfg : Config) (xw w xe e xf f : Dial) : List Event :=
  [.dInit, .aInit, .tInit] ++ dialEvents cfg.chW xw w ++ dialEvents cfg.chE xe e ++ dialEvents cfg.chF xf f

/-- `BOOTED` (70 R303): the state on entry to frame 0, for the three boot readings `w`, `e`, `f`. `MATCH` and `TCNT` may be
anything, and so may the ports. The timer runs (R302, log 7), the history since the reset is that of the reset sequence, and the
model's own positions are at their starts (logs 10, 14). -/
structure Booted (s : State) (w e f : Dial) : Prop where
  fstep   : s.seq.fstep = .wait
  cnt     : s.core.cnt = 0
  det     : s.core.det = 0
  tri     : s.core.tri = s.cfg.triInit
  rng     : s.core.rng = s.cfg.seed
  dw      : s.core.dw = w
  de      : s.core.de = e
  df      : s.core.df = f
  tnxt    : s.timer.tnxt = s.cfg.pInit
  tper    : s.timer.tper = s.cfg.pInit
  ach     : s.adc.ach = s.cfg.chF
  abusy   : s.adc.abusy = false
  adone   : s.adc.adone = true
  asettle : s.adc.asettle = false
  ares    : s.adc.ares = f
  running : s.timer.running = true
  history : ∃ xw xe xf, (sinceReset s.events).filter isCoreEvent = bootEvents s.cfg xw w xe e xf f
  place   : s.seq.chan = .sine ∧ s.seq.part = 0 ∧ s.core.rdblk = false

/-! ### The invariant -/

/-- "`ABUSY` and `ADONE` are never both 1" (10 R32). -/
def adcFlagsExclusive (s : State) : Prop := ¬(s.adc.abusy = true ∧ s.adc.adone = true)

/-- "never zero if seeded non-zero" (10 R25). -/
def rngNonzero (s : State) : Prop := s.core.rng ≠ 0

/-- No period in force or programmed is 0 (U5 is never reached). -/
def periodsNonzero (s : State) : Prop := s.timer.tper ≠ 0 ∧ s.timer.tnxt ≠ 0

/-- The boot positions up to the one at which `T.INIT` is issued (70 R301). -/
def bootUntilTimer (b : BootStep) : Bool :=
  match b with
  | .dInit | .aInit | .tInit => true
  | _ => false

/-- From the position after `T.INIT` on the timer runs (70 R302). -/
def timerStarted (s : State) : Prop :=
  s.seq.fstep ≠ .boot ∨ bootUntilTimer s.seq.boot = false → s.timer.running = true

/-- The boot positions at which `A.READBLK` is issued (70 R301). -/
def bootReads (b : BootStep) : Bool :=
  match b with
  | .discW | .keepW | .discE | .keepE | .discF | .keepF => true
  | _ => false

/-- `A.READBLK` polls only in the reset sequence (46 R248). -/
def pollsOnlyAtBoot (s : State) : Prop :=
  s.core.rdblk = true → s.seq.fstep = .boot ∧ bootReads s.seq.boot = true

/-- The boot positions after the core registers are written (70 R301). -/
def bootAfterRegs (b : BootStep) : Bool :=
  match b with
  | .dInit | .aInit | .tInit | .regs => false
  | _ => true

/-- Frame 0 is the first frame: `CNT` stays 0 from the step that writes it to the end of the reset sequence (70 R303). -/
def bootCountsFromZero (s : State) : Prop :=
  s.seq.fstep = .boot → bootAfterRegs s.seq.boot = true → s.core.cnt = 0

/-- How many acquisition words of the 256-frame cycle are behind the core: the frame's own once its `ACQ` step is done. -/
def cyclePosition (s : State) : Nat :=
  match s.seq.fstep with
  | .advance => (acqWord s.core.cnt).toNat + 1
  | _ => (acqWord s.core.cnt).toNat

/-- The idle windows of the cycle (42 R156): after the reads of phases 0x40 and 0xE0 and before the next start. -/
def idleWindow (n : Nat) : Prop := n = 0 ∨ (0x41 ≤ n ∧ n ≤ 0x60) ∨ 0xE1 ≤ n

/-- No conversion is in flight in an idle window, nor in the reset sequence except while `A.READBLK` polls. -/
def idleAdcRests (s : State) : Prop :=
  match s.seq.fstep with
  | .boot => s.core.rdblk = false → s.adc.abusy = false
  | _ => idleWindow (cyclePosition s) → s.adc.abusy = false

/-- The channel stands at the first one but in the `SYNTH` and `EFFECT` steps of a `QUAD` frame (log 14). -/
def channelRests (s : State) : Prop :=
  s.seq.chan = .sine ∨ s.cfg.outputMode = .quad ∧ (s.seq.fstep = .synth ∨ s.seq.fstep = .effect)

/-- How many HAL operations the operation at the core's position is (D28, log 10). -/
def positionSteps (s : State) : Nat :=
  match s.seq.fstep with
  | .encode => halSteps s.cfg.outputMode.encoder
  | .acq => halSteps (acquisitionOf (acqWord s.core.cnt))
  | _ => 1

/-- Fewer HAL operations are done than the operation at hand has. -/
def partInRange (s : State) : Prop := s.seq.part.val < positionSteps s

/-- No conversion is in flight between the HAL operations of an acquisition operation (42 R144 to R151). -/
def partRests (s : State) : Prop := s.seq.fstep = .acq → s.seq.part ≠ 0 → s.adc.abusy = false

/-- The invariant: what holds of every state that a block with good parameters can be in. -/
structure Inv (s : State) : Prop where
  good    : GoodConfig s
  flags   : adcFlagsExclusive s
  rng     : rngNonzero s
  periods : periodsNonzero s
  started : timerStarted s
  polls   : pollsOnlyAtBoot s
  zero    : bootCountsFromZero s
  idle    : idleAdcRests s
  rests   : channelRests s
  part    : partInRange s
  between : partRests s

/-! ### Frames: what an operation leaves alone -/

/-- The parameters and the sequencer: what no operation of the core writes (the step moves the sequencer). -/
def keepsBuild (s t : State) : Prop := t.cfg = s.cfg ∧ t.seq = s.seq

/-- The samples other than the one worked on are unchanged (43 R170, R190). -/
def keepsOtherSamples (s t : State) : Prop :=
  match s.cfg.outputMode with
  | .single =>
    t.samples.sine = s.samples.sine ∧ t.samples.tri = s.samples.tri ∧ t.samples.saw = s.samples.saw ∧
      t.samples.pulse = s.samples.pulse
  | .quad =>
    t.samples.mono = s.samples.mono ∧
      (s.seq.chan ≠ .sine → t.samples.sine = s.samples.sine) ∧
      (s.seq.chan ≠ .tri → t.samples.tri = s.samples.tri) ∧
      (s.seq.chan ≠ .saw → t.samples.saw = s.samples.saw) ∧
      (s.seq.chan ≠ .pulse → t.samples.pulse = s.samples.pulse)

/-- Everything but the sample worked on and the core registers is unchanged: no port, timer, ADC or event. -/
def keepsDevices (s t : State) : Prop :=
  keepsBuild s t ∧ t.timer = s.timer ∧ t.adc = s.adc ∧ t.ports = s.ports ∧ t.env = s.env ∧ t.events = s.events ∧
    keepsOtherSamples s t

/-- Only the sample worked on has changed, to `v`. -/
def onlySample (s t : State) (v : Nat) : Prop :=
  t.sample.toNat = v ∧ t.core = s.core ∧ keepsDevices s t

/-- The dials are unchanged. -/
def keepsDials (s t : State) : Prop :=
  t.core.dw = s.core.dw ∧ t.core.de = s.core.de ∧ t.core.df = s.core.df

/-- The counters are unchanged. -/
def keepsCounters (s t : State) : Prop := t.core.cnt = s.core.cnt ∧ t.core.det = s.core.det

/-- The generators' own state is unchanged. -/
def keepsGenerators (s t : State) : Prop := t.core.tri = s.core.tri ∧ t.core.rng = s.core.rng

/-- What the ADC operations leave alone: everything but the ADC, the dials, the returned value and the history. -/
def keepsAllButAdc (s t : State) : Prop :=
  keepsBuild s t ∧ keepsCounters s t ∧ keepsGenerators s t ∧ t.core.rdblk = s.core.rdblk ∧ t.samples = s.samples ∧
    t.timer = s.timer ∧ t.ports = s.ports ∧ t.env = s.env

/-- What the timer operations leave alone: everything but the timer and the history. -/
def keepsAllButTimer (s t : State) : Prop :=
  keepsBuild s t ∧ t.core = s.core ∧ t.samples = s.samples ∧ t.adc = s.adc ∧ t.ports = s.ports ∧ t.env = s.env

/-- What the port operations leave alone: everything but the ports and the history. -/
def keepsAllButPorts (s t : State) : Prop :=
  keepsBuild s t ∧ t.core = s.core ∧ t.samples = s.samples ∧ t.adc = s.adc ∧ t.timer = s.timer ∧ t.env = s.env

/-! ### A frame as one function (30 R104, 41 R123) -/

/-- The sample a variant's generator computes, as a function of the state the frame begins with (43 R172 to R181). -/
def generated (s : State) : Variant → Option Sample
  | .sine => (s.cfg.st[s.core.cnt.toNat % s.cfg.st.length]?).map fun v => (v &&& 0x1F#8).setWidth 5
  | .triangle => some (triNext (directionBit s.core.cnt) s.core.tri)
  | .pulse =>
    some (if s.core.cnt.toNat % s.cfg.st.length < (pulseThreshold s.core.de).toNat then 31 else 0)
  | .saw => some (sawValue s.core.cnt)
  | .superSaw => some (meanValue (sawValue s.core.cnt) (sawValue s.core.det))
  | .clippedSaw => some (csawValue s.core.cnt)
  | .clippedSuperSaw => some (meanValue (csawValue s.core.cnt) (csawValue s.core.det))
  | .noise => some ((xorShift s.cfg.xsA s.cfg.xsB s.cfg.xsC s.core.rng).extractLsb' 0 5)

/-- `Quantize(s, DE)` as a function (44 R210). -/
def quantized (cfg : Config) (de : Dial) (v : Sample) : Option Sample :=
  match (levelField de).toNat with
  | 0 => some v
  | 1 => (cfg.q16[v.toNat]?).map (BitVec.setWidth 5)
  | 2 => (cfg.q8[v.toNat]?).map (BitVec.setWidth 5)
  | _ => (cfg.q4[v.toNat]?).map (BitVec.setWidth 5)

/-- What the frame's acquisition operation needs of the ADC: a read needs a finished conversion, a start or a selection an
ADC at rest (42 R144 to R151, R155). -/
def adcReady (s : State) : Prop :=
  match acquisitionOf (acqWord s.core.cnt) with
  | .acqWsel | .acqEsel => s.adc.abusy = false
  | .acqNop _ _ => True
  | _ => s.adc.adone = true ∧ s.adc.abusy = false

/-- The ADC after a frame's acquisition operation (42 R144 to R152), where nothing completes during it. -/
def frameAdc (s : State) : Adc :=
  match acquisitionOf (acqWord s.core.cnt) with
  | .acqWsel => { s.adc with ach := s.cfg.chW, asettle := true, abusy := true, adone := false }
  | .acqEsel => { s.adc with ach := s.cfg.chE, asettle := true, abusy := true, adone := false }
  | .acqElatchFsel => { s.adc with ach := s.cfg.chF, asettle := true, abusy := true, adone := false }
  | .acqWdisc | .acqEdisc | .acqFdisc => { s.adc with abusy := true, adone := false }
  | _ => s.adc

/-- The events of a frame's acquisition operation (42 R144 to R152). -/
def frameAcqEvents (s : State) : List Event :=
  match acquisitionOf (acqWord s.core.cnt) with
  | .acqWsel => [.aSel s.cfg.chW, .aStart]
  | .acqEsel => [.aSel s.cfg.chE, .aStart]
  | .acqElatchFsel => [.aRead s.adc.ares, .aSel s.cfg.chF, .aStart]
  | .acqWdisc | .acqEdisc | .acqFdisc => [.aRead s.adc.ares, .aStart]
  | .acqWlatch | .acqFlatch => [.aRead s.adc.ares]
  | _ => []

/-- What the model's result register holds after a frame (log 12): a read of the frame returns the ADC's result. -/
def frameResult (s : State) : Dial := if readingWord (acqWord s.core.cnt) then s.adc.ares else s.core.res

/-- The core's steps of one frame beside those of `SYNTH` and `EFFECT`: `WAIT`, `RELOAD`, `ADVANCE`, and one for each HAL
operation of the encoder and of the acquisition (log 10). -/
def frameSteps (s : State) : Nat :=
  3 + halSteps s.cfg.outputMode.encoder + halSteps (acquisitionOf (acqWord s.core.cnt))

/-- The dials after a frame's acquisition operation (42 R146, R149, R151). -/
def latched (s : State) (c : CoreRegs) : Prop :=
  c.dw = (if acqWord s.core.cnt = 0x40 then s.adc.ares else s.core.dw) ∧
  c.de = (if acqWord s.core.cnt = 0xA0 then s.adc.ares else s.core.de) ∧
  c.df = (if acqWord s.core.cnt = 0xE0 then s.adc.ares else s.core.df)

/-- The moves of one blocking read of the reset sequence: the core starts it, the ADC completes, the core returns it. -/
def readMoves (ain residual : Dial) : List Move := [.core, .adcComplete ain residual, .core]

/-- A script for the reset sequence (70 R301) in which the dials read `w`, `e`, `f` and every contaminated conversion `x`. -/
def bootScript (w e f x : Dial) : List Move :=
  coreMoves 4 ++
    ([.core] ++ readMoves w x ++ readMoves w x) ++
    ([.core] ++ readMoves e x ++ readMoves e x) ++
    ([.core] ++ readMoves f x ++ readMoves f x)

/-- `Saw(c)` on numbers (43 R175). -/
def sawNat (c : Nat) : Nat := c / 2 % 32

/-- `CSaw(c)` on numbers (43 R177). -/
def csawNat (c : Nat) : Nat := if c % 64 < 16 then 0 else if c % 64 < 48 then c % 64 - 16 else 31

/-- The counter operations of `n` frames in a row, each selected by `CNT[6:0]` (41 R128, R129). -/
def advanceFrames : Nat → State → Result
  | 0, s => .next s
  | n + 1, s => andThen (exec (advanceOf (skipField s.core.cnt)) s) (advanceFrames n)

/-- `n` timer clocks in a row (41 R121). -/
def clocks : Nat → State → Result
  | 0, s => .next s
  | n + 1, s => andThen (timerClock s) (clocks n)

/-- A selector with its don't-care bits at 0 (30 R91 "ign", R101). -/
def significantBits : Selector → Selector
  | .wsel w => .wsel (w &&& 0x380#10)
  | .esel w => .esel (w &&& 0x300#10)
  | .fsel w => .fsel (w &&& 0x3FE#10)
  | sel => sel

/-- The pin of bit `b` of a port (45 R223). -/
def pinOf (m : PortMap α) (b : Nat) : Option α := m.pins[7 - b]?

end Sys2Proof.Machine
end

