-- ==== Sys2Proof/Certificates/Slice0/Obligations.lean ====
section
/-! DEFINITION. The statements for the provers: what the rules of spec/ say the operations and the machine do. -/

open Sys2Proof Sys2Proof.Machine

/-! ### The step and the decoder -/

/-- A step on the core's move runs the operation that the selector word at its position decodes to, and goes on to the next
position where the operation is complete (41_frame_scheduler.md section 2). At `BOOT` and `WAIT` the word is the model's HAL word
(log 15: 30 R90 gives `HAL` none); that an operation which is not complete is a step that stays is the model's cut of the thread (logs 10
and 28). The one step of the reset sequence that writes the core registers selects no word and is not covered here. -/
def Obligations.StepRunsDecodedOperation : Prop :=
  ∀ (s : State) (sel : Selector) (i : Instr),
    s.nextMove = .core → s.configFault = none → s.selector = some sel → decode s.cfg sel = .ok i →
    step s = andThen (exec i s.afterMove) fun t => .next (if completes i s then t.advance else t)

/-- At every position the core selects a word that decodes to a well-formed operation, but for the step of the reset sequence that
writes the core registers. The words at `BOOT` and `WAIT` are the model's (HAL operations have no bits in the spec, log 15), as are the
boot positions (log 4) and the selector of each channel of a `QUAD` `SYNTH` step (log 14). Which operation a position selects is
not said here. -/
def Obligations.EveryPositionSelectsAnOperation : Prop :=
  ∀ s : State,
    (s.seq.fstep = .boot ∧ s.seq.boot = .regs ∧ s.selector = none) ∨
    ∃ sel i, s.selector = some sel ∧ decode s.cfg sel = .ok i ∧ i.wf = true

/-- Words written out from the operation map decode to their operations. That the first is `SAW` rests on the default `VARIANT_CODE`, the
spec's decision D1 (log 2). -/
def Obligations.WrittenWordsDecode : Prop :=
  decode Config.default (.wsel 0b0110000000) = .ok .saw ∧
  decode Config.default (.esel 0b1000000000) = .ok .qz8 ∧
  decode Config.default (.fsel 0b1111111111) = .ok (.reload 511) ∧
  decode Config.default (.aph 0b10100000) = .ok .acqElatchFsel ∧
  decode Config.default (.adv 0b0000000) = .ok .advHold

/-- Decoding the word of a well-formed operation gives the operation back, for every admissible `VARIANT_CODE`.
The operand places of HAL words are the model's (log 15). -/
def Obligations.DecodeInvertsEncode : Prop :=
  ∀ (cfg : Config) (i : Instr), cfg.variantCode.bijective = true → i.wf = true →
    decode cfg (encode cfg i) = .ok i

/-- Encoding what a word decodes to gives the word back with its don't-care bits at 0.
The operand places of HAL words are the model's (log 15). -/
def Obligations.EncodeInvertsDecode : Prop :=
  ∀ (cfg : Config) (sel : Selector) (i : Instr), cfg.variantCode.bijective = true →
    (∀ ch, sel ≠ .quad ch) → decode cfg sel = .ok i →
    encode cfg i = significantBits sel

/-- R101: every value of a selector word selects an operation of its format, the bits marked "ign" in R91 are don't-cares (the low
five bits of `DE` for the pulse width too), and the `APH` words with `off != 0` are the only no-op encodings. -/
def Obligations.NoSelectorIsIllegal : Prop :=
  ∀ cfg : Config,
    (∀ w : Dial, ∃ v : Variant, decode cfg (.wsel w) = .ok v.generator) ∧
    (∀ w : Dial, ∃ i ∈ [Instr.qz32, .qz16, .qz8, .qz4], decode cfg (.esel w) = .ok i) ∧
    (∀ w : Dial, ∃ pidx, decode cfg (.fsel w) = .ok (.reload pidx)) ∧
    (∀ b : BitVec 8,
      (∃ i ∈ [Instr.acqWsel, .acqWdisc, .acqWlatch, .acqEsel, .acqEdisc, .acqElatchFsel, .acqFdisc, .acqFlatch],
        decode cfg (.aph b) = .ok i ∧ b.toNat % 32 = 0) ∨
      (∃ band off, decode cfg (.aph b) = .ok (.acqNop band off) ∧ b.toNat % 32 ≠ 0)) ∧
    (∀ k : BitVec 7, decode cfg (.adv k) = .ok .advHold ∨ ∃ skip, decode cfg (.adv k) = .ok (.advInc skip)) ∧
    (∀ w w' : Dial, w.toNat / 128 = w'.toNat / 128 → decode cfg (.wsel w) = decode cfg (.wsel w')) ∧
    (∀ w w' : Dial, w.toNat / 256 = w'.toNat / 256 → decode cfg (.esel w) = decode cfg (.esel w')) ∧
    (∀ w w' : Dial, w.toNat / 32 = w'.toNat / 32 → pulseThreshold w = pulseThreshold w') ∧
    (∀ w w' : Dial, w.toNat / 2 = w'.toNat / 2 → decode cfg (.fsel w) = decode cfg (.fsel w'))

/-- R93, R95: the fields of `DE` and `DF` are quotients, and the other bits take no part. -/
def Obligations.LevelAndIndexAreQuotients : Prop :=
  (∀ de : Dial, (levelField de).toNat = de.toNat / 256) ∧
  (∀ df : Dial, (pidxField df).toNat = df.toNat / 2) ∧ pidxField 1023 = 511

/-- R96: an acquisition operation fires exactly where the low byte of `CNT` equals its phase value. -/
def Obligations.AcquisitionFiresExactlyAtPhases : Prop :=
  ∀ (cfg : Config) (cnt : Counter),
    (decode cfg (.aph (acqWord cnt)) = .ok .acqWsel ↔ cnt.toNat % 256 = 0x00) ∧
    (decode cfg (.aph (acqWord cnt)) = .ok .acqWdisc ↔ cnt.toNat % 256 = 0x20) ∧
    (decode cfg (.aph (acqWord cnt)) = .ok .acqWlatch ↔ cnt.toNat % 256 = 0x40) ∧
    (decode cfg (.aph (acqWord cnt)) = .ok .acqEsel ↔ cnt.toNat % 256 = 0x60) ∧
    (decode cfg (.aph (acqWord cnt)) = .ok .acqEdisc ↔ cnt.toNat % 256 = 0x80) ∧
    (decode cfg (.aph (acqWord cnt)) = .ok .acqElatchFsel ↔ cnt.toNat % 256 = 0xA0) ∧
    (decode cfg (.aph (acqWord cnt)) = .ok .acqFdisc ↔ cnt.toNat % 256 = 0xC0) ∧
    (decode cfg (.aph (acqWord cnt)) = .ok .acqFlatch ↔ cnt.toNat % 256 = 0xE0) ∧
    ((∃ band off, decode cfg (.aph (acqWord cnt)) = .ok (.acqNop band off)) ↔ cnt.toNat % 32 ≠ 0)

/-! ### Generators -/

/-- `SINE`: the table's entry at `CNT mod SINE_LEN`, reduced to 0..31; nothing else changes. The place of the sample is the
model's (log 13). -/
def Obligations.SineReadsTable : Prop :=
  ∀ s : State, s.cfg.st.length ≠ 0 →
    ∃ v t, s.cfg.st[s.core.cnt.toNat % s.cfg.st.length]? = some v ∧ exec .sine s = .next t ∧
      onlySample s t (v.toNat % 32)

/-- `TRI`: falls where `CNT[5]` is set and the amplitude is above 0, else rises below 31, else holds; the sample is the updated
amplitude, which is the spec's decision D11. The place of the sample is the model's (log 13). -/
def Obligations.TriangleSteps : Prop :=
  ∀ s : State, ∃ t n, exec .tri s = .next t ∧
    n = (if s.core.cnt.toNat / 32 % 2 = 1 ∧ 0 < s.core.tri.toNat then s.core.tri.toNat - 1
         else if s.core.tri.toNat < 31 then s.core.tri.toNat + 1 else s.core.tri.toNat) ∧
    t.core.tri.toNat = n ∧ t.sample.toNat = n ∧
    t.core = { s.core with tri := t.core.tri } ∧ keepsDevices s t

/-- `PULSE`: 31 for the first `32 - DE / 32` frames of every `SINE_LEN`, else 0; nothing else changes. That the period is
`SINE_LEN` is the spec's decision D37. The place of the sample is the model's (log 13). -/
def Obligations.PulseComparesThreshold : Prop :=
  ∀ s : State, ∃ t, exec .pulse s = .next t ∧
    onlySample s t (if s.core.cnt.toNat % s.cfg.st.length < 32 - s.core.de.toNat / 32 then 31 else 0)

/-- `SAW` and `CSAW`: `Saw(CNT)` and `CSaw(CNT)`; nothing else changes. The place of the sample is the model's (log 13). -/
def Obligations.SawsFollowCounter : Prop :=
  ∀ s : State,
    (∃ t, exec .saw s = .next t ∧ onlySample s t (sawNat s.core.cnt.toNat)) ∧
    (∃ t, exec .csaw s = .next t ∧ onlySample s t (csawNat s.core.cnt.toNat))

/-- `SSAW` and `CSSAW`: the floor of the mean of the two phases' values (the spec's decision D13); nothing else changes. The place
of the sample is the model's (log 13). -/
def Obligations.SuperSawsAverage : Prop :=
  ∀ s : State,
    (∃ t, exec .ssaw s = .next t ∧
      onlySample s t ((sawNat s.core.cnt.toNat + sawNat s.core.det.toNat) / 2)) ∧
    (∃ t, exec .cssaw s = .next t ∧
      onlySample s t ((csawNat s.core.cnt.toNat + csawNat s.core.det.toNat) / 2))

/-- `NOISE`: steps `RNG` by the three lines of R182 and gives its low byte modulo 32. The form of the step is the spec's decision D9;
the place of the sample is the model's (log 13). -/
def Obligations.NoiseStepsGenerator : Prop :=
  ∀ s : State, ∃ t x1 x2, exec .noise s = .next t ∧
    x1 = s.core.rng ^^^ (s.core.rng <<< s.cfg.xsA) ∧ x2 = x1 ^^^ (x1 >>> s.cfg.xsB) ∧
    t.core = { s.core with rng := x2 ^^^ (x2 <<< s.cfg.xsC) } ∧
    t.sample.toNat = t.core.rng.toNat % 256 % 32 ∧ keepsDevices s t

/-- The xorshift step is a bijection that maps only 0 to 0, for all shift amounts in 1..31. The form of the step is the spec's
decision D9. -/
def Obligations.XorShiftIsBijective : Prop :=
  ∀ a b c : Nat, (1 ≤ a ∧ a ≤ 31) → (1 ≤ b ∧ b ≤ 31) → (1 ≤ c ∧ c ≤ 31) →
    Function.Bijective (xorShift a b c) ∧ ∀ x, xorShift a b c x = 0 ↔ x = 0

/-! ### Quantizers -/

/-- R211: `QZ32` is selected by `DE` in 0..255 and is the identity; nothing changes but the sample, which stays. The place of the sample is
the model's (log 13). -/
def Obligations.Qz32IsIdentity : Prop :=
  ∀ s : State,
    (∀ de : Dial, decode s.cfg (.esel de) = .ok .qz32 ↔ de.toNat < 256) ∧
    ∃ t, exec .qz32 s = .next t ∧ onlySample s t s.sample.toNat

/-- R212: `QZ16` is selected by `DE` in 256..511 and reads `Q16` at the sample; the entries of the default table that the
rule's examples name (log 2). The place of the sample is
the model's (log 13). -/
def Obligations.Qz16ReadsTable : Prop :=
  ∀ s : State, GoodConfig s →
    (∀ de : Dial, decode s.cfg (.esel de) = .ok .qz16 ↔ 256 ≤ de.toNat ∧ de.toNat < 512) ∧
    (∃ v t, s.cfg.q16[s.sample.toNat]? = some v ∧ exec .qz16 s = .next t ∧ onlySample s t v.toNat) ∧
    Config.default.q16[13]? = some 12

/-- R213: `QZ8` is selected by `DE` in 512..767 and reads `Q8` at the sample; the entries of the default table that the
rule's examples name (log 2). The place of the sample is
the model's (log 13). -/
def Obligations.Qz8ReadsTable : Prop :=
  ∀ s : State, GoodConfig s →
    (∀ de : Dial, decode s.cfg (.esel de) = .ok .qz8 ↔ 512 ≤ de.toNat ∧ de.toNat < 768) ∧
    (∃ v t, s.cfg.q8[s.sample.toNat]? = some v ∧ exec .qz8 s = .next t ∧ onlySample s t v.toNat) ∧
    Config.default.q8[13]? = some 12 ∧ Config.default.q8[31]? = some 28

/-- R214: `QZ4` is selected by `DE` in 768..1023 and reads `Q4` at the sample; the entries of the default table that the
rule's examples name (log 2). The place of the sample is
the model's (log 13). -/
def Obligations.Qz4ReadsTable : Prop :=
  ∀ s : State, GoodConfig s →
    (∀ de : Dial, decode s.cfg (.esel de) = .ok .qz4 ↔ 768 ≤ de.toNat) ∧
    (∃ v t, s.cfg.q4[s.sample.toNat]? = some v ∧ exec .qz4 s = .next t ∧ onlySample s t v.toNat) ∧
    Config.default.q4[13]? = some 8 ∧ Config.default.q4[31]? = some 24

/-- Quantizing twice by one dial value gives what quantizing once gives, and quantizing is monotone (44 R215), for every
admissible set of tables. -/
def Obligations.QuantizingIsIdempotentAndMonotone : Prop :=
  ∀ (s : State) (de : Dial) (i : Instr), GoodConfig s → decode s.cfg (.esel de) = .ok i →
    (∃ t u, exec i s = .next t ∧ exec i t = .next u ∧ u.sample = t.sample) ∧
    (∀ r t u : State, r.cfg = s.cfg → r.sample ≤ s.sample → exec i r = .next t → exec i s = .next u →
      t.sample ≤ u.sample)

/-! ### Scheduler -/

/-- `RELOAD`: the table's entry becomes the next period; the active period, the counter and the flag stay (41 R124, 46 R241). -/
def Obligations.ReloadProgramsNextPeriod : Prop :=
  ∀ (s : State) (pidx : BitVec 9), GoodConfig s →
    ∃ v t, s.cfg.pt[pidx.toNat]? = some v ∧ exec (.reload pidx) s = .next t ∧
      t.timer = { s.timer with tnxt := v } ∧ t.events = s.events ++ [.tSetper v] ∧ keepsAllButTimer s t

/-- R128: `ADV.INC` is selected where `CNT[6:0] != 0` and advances both counters, each modulo 65536. -/
def Obligations.AdvIncAdvancesBoth : Prop :=
  (∀ (cfg : Config) (cnt : Counter), cnt.toNat % 128 ≠ 0 →
    decode cfg (.adv (skipField cnt)) = .ok (.advInc (skipField cnt))) ∧
  ∀ (s : State) (skip : BitVec 7), ∃ t, exec (.advInc skip) s = .next t ∧
    t.core.cnt.toNat = (s.core.cnt.toNat + 1) % 65536 ∧ t.core.det.toNat = (s.core.det.toNat + 1) % 65536 ∧
    t.core = { s.core with cnt := t.core.cnt, det := t.core.det } ∧ t.samples = s.samples ∧ keepsDevices s t

/-- `ADV.HOLD` is selected where `CNT[6:0] == 0`, on the value of the frame (the spec's decision D12), and advances `CNT` alone. -/
def Obligations.AdvHoldKeepsDetuned : Prop :=
  (∀ (cfg : Config) (cnt : Counter), decode cfg (.adv (skipField cnt)) = .ok .advHold ↔ cnt.toNat % 128 = 0) ∧
  ∀ s : State, ∃ t, exec .advHold s = .next t ∧
    t.core.cnt.toNat = (s.core.cnt.toNat + 1) % 65536 ∧
    t.core = { s.core with cnt := t.core.cnt } ∧ t.samples = s.samples ∧ keepsDevices s t

/-- The closed form of the counters (41 R130, derived there): after `n < 65536` frames from 0 they are `n` and `n - ceil(n / 128)`. -/
def Obligations.CountersClosedForm : Prop :=
  ∀ (n : Nat) (s : State), n < 65536 → s.core.cnt = 0 → s.core.det = 0 →
    ∃ t, advanceFrames n s = .next t ∧ t.core.cnt.toNat = n ∧ t.core.det.toNat = n - (n + 127) / 128

/-! ### Acquisition -/

/-- `ACQ.WSEL` and `ACQ.ESEL`: with the ADC at rest, the dial's channel is selected and then a conversion started (42 R144, R147). That
each of the two HAL operations is a step of its own is the spec's decision D28; the field that counts them is the model's (log 10). -/
def Obligations.AcqSelectsAndStarts : Prop :=
  ∀ (s : State) (i : Instr) (ch : ChannelId),
    i = .acqWsel ∧ ch = s.cfg.chW ∨ i = .acqEsel ∧ ch = s.cfg.chE → s.seq.part = 0 → s.adc.abusy = false →
    ∃ u, exec i s = .next u ∧
      u = { s with adc := { s.adc with ach := ch, asettle := true }, seq := { s.seq with part := 1 },
                   events := s.events ++ [.aSel ch] } ∧
      exec i u = .next { s with adc := { ach := ch, abusy := true, adone := false, ares := s.adc.ares, asettle := true },
                                events := s.events ++ [.aSel ch, .aStart] }

/-- `ACQ.WDISC`, `ACQ.EDISC`, `ACQ.FDISC`: a finished result is read and thrown away and then a conversion started; no dial changes
(42 R145, R148, R150). That each of the two HAL operations is a step of its own is the spec's decision D28; the field that counts them
and the register that holds the result are the model's (logs 10 and 12). -/
def Obligations.AcqDiscardsAndRestarts : Prop :=
  ∀ (s : State) (i : Instr), i = .acqWdisc ∨ i = .acqEdisc ∨ i = .acqFdisc →
    s.seq.part = 0 → s.adc.adone = true → s.adc.abusy = false →
    ∃ u, exec i s = .next u ∧
      u = { s with core := { s.core with res := s.adc.ares }, seq := { s.seq with part := 1 },
                   events := s.events ++ [.aRead s.adc.ares] } ∧
      exec i u = .next { s with core := { s.core with res := s.adc.ares },
                                adc := { s.adc with abusy := true, adone := false },
                                events := s.events ++ [.aRead s.adc.ares, .aStart] }

/-- `ACQ.WLATCH` and `ACQ.FLATCH`: the result becomes the dial, the ADC is left as it is (42 R146, R151). -/
def Obligations.AcqLatchesResult : Prop :=
  ∀ s : State, s.adc.adone = true →
    (∃ t, exec .acqWlatch s = .next t ∧ t.core.dw = s.adc.ares ∧ t.core.de = s.core.de ∧ t.core.df = s.core.df ∧
      t.adc = s.adc ∧ t.events = s.events ++ [.aRead s.adc.ares] ∧ keepsAllButAdc s t) ∧
    (∃ t, exec .acqFlatch s = .next t ∧ t.core.df = s.adc.ares ∧ t.core.dw = s.core.dw ∧ t.core.de = s.core.de ∧
      t.adc = s.adc ∧ t.events = s.events ++ [.aRead s.adc.ares] ∧ keepsAllButAdc s t)

/-- `ACQ.ELATCH_FSEL`: the result becomes `DE`, then `CH_F` is selected, then a conversion started (42 R149). That each of the three HAL
operations is a step of its own is the spec's decision D28; the field that counts them and the register that holds the result are the
model's (logs 10 and 12). -/
def Obligations.AcqLatchesEffectAndSelects : Prop :=
  ∀ s : State, s.seq.part = 0 → s.adc.adone = true → s.adc.abusy = false →
    ∃ u v, exec .acqElatchFsel s = .next u ∧
      u = { s with core := { s.core with de := s.adc.ares, res := s.adc.ares }, seq := { s.seq with part := 1 },
                   events := s.events ++ [.aRead s.adc.ares] } ∧
      exec .acqElatchFsel u = .next v ∧
      v = { u with adc := { s.adc with ach := s.cfg.chF, asettle := true }, seq := { s.seq with part := 2 },
                   events := s.events ++ [.aRead s.adc.ares, .aSel s.cfg.chF] } ∧
      exec .acqElatchFsel v = .next
        { s with core := { s.core with de := s.adc.ares, res := s.adc.ares },
                 adc := { ach := s.cfg.chF, abusy := true, adone := false, ares := s.adc.ares, asettle := true },
                 events := s.events ++ [.aRead s.adc.ares, .aSel s.cfg.chF, .aStart] }

/-- R152: in every frame with `CNT[4:0] != 0` the operation is `ACQ.NOP`, which changes nothing and is no event. -/
def Obligations.AcqNopChangesNothing : Prop :=
  (∀ (cfg : Config) (cnt : Counter), cnt.toNat % 32 ≠ 0 →
    ∃ band off, decode cfg (.aph (acqWord cnt)) = .ok (.acqNop band off)) ∧
  ∀ (s : State) (band : BitVec 3) (off : BitVec 5), exec (.acqNop band off) s = .next s

/-- An acquisition operation that reads an unfinished conversion is the model fault `AdcNotDone`, and one that selects or starts during
a conversion is `AdcBusy` (60 R272); each records `CNT`. Which of its HAL operations is next is the model's field (log 10). -/
def Obligations.AcquisitionFaults : Prop :=
  ∀ s : State,
    (s.seq.part = 0 → s.adc.adone = false →
      ∀ i ∈ [Instr.acqWdisc, .acqWlatch, .acqEdisc, .acqElatchFsel, .acqFdisc, .acqFlatch],
        exec i s = .fault (.adcNotDone s.core.cnt)) ∧
    (s.seq.part = 0 → s.adc.abusy = true → ∀ i ∈ [Instr.acqWsel, .acqEsel], exec i s = .fault (.adcBusy s.core.cnt)) ∧
    (s.seq.part ≠ 0 → s.adc.abusy = true →
      ∀ i ∈ [Instr.acqWsel, .acqWdisc, .acqEsel, .acqEdisc, .acqElatchFsel, .acqFdisc],
        exec i s = .fault (.adcBusy s.core.cnt))

/-! ### Encoders -/

/-- `ENC.SINGLE`: one word to the port of `SINGLE_PINMAP`, each bit as the map says; under the default map the port is 0 and the word is
the sample (the spec's decision D3; the form of the map is the model's, log 29). A port that is not in use is refused (log 19). The
place of the sample is the model's (log 13). -/
def Obligations.EncSingleWritesSample : Prop :=
  ∀ s : State,
    (s.cfg.singlePinmap.port.toNat < s.cfg.nPorts ∧ s.cfg.singlePinmap.port ≠ 3 →
      ∃ t w, exec .encSingle s = .next t ∧ t.ports = s.ports.write s.cfg.singlePinmap.port w ∧
        t.events = s.events ++ [.dWrite s.cfg.singlePinmap.port w] ∧ keepsAllButPorts s t ∧
        (∀ b, b < 8 → (pinOf s.cfg.singlePinmap.pins b).map (singlePinValue s.samples.mono) = some (w.getLsbD b)) ∧
        (s.cfg.singlePinmap = defaultSinglePinmap →
          t.ports = { s.ports with p0 := w } ∧ w.toNat = s.samples.mono.toNat)) ∧
    (¬(s.cfg.singlePinmap.port.toNat < s.cfg.nPorts ∧ s.cfg.singlePinmap.port ≠ 3) →
      exec .encSingle s = .refused (.portNotInUse s.cfg.singlePinmap.port))

/-- `ENC.QUAD`: three words to ports 0, 1, 2 in this order, each bit a copy that `QUAD_PINMAP` names (the spec's decision D4), one write
a step, so that between them the ports hold a mixture (U17, the spec's decision D28; the field that counts the writes is the model's,
log 10). The place of the samples is the model's (log 13). -/
def Obligations.EncQuadPacksFourSamples : Prop :=
  ∀ s : State, 3 ≤ s.cfg.nPorts → s.seq.part = 0 →
    ∃ u v w0 w1 w2,
      exec .encQuad s = .next u ∧
      u = { s with ports := { s.ports with p0 := w0 }, seq := { s.seq with part := 1 },
                   events := s.events ++ [.dWrite 0 w0] } ∧
      exec .encQuad u = .next v ∧
      v = { s with ports := { s.ports with p0 := w0, p1 := w1 }, seq := { s.seq with part := 2 },
                   events := s.events ++ [.dWrite 0 w0, .dWrite 1 w1] } ∧
      exec .encQuad v = .next
        { s with ports := { s.ports with p0 := w0, p1 := w1, p2 := w2 },
                 events := s.events ++ [.dWrite 0 w0, .dWrite 1 w1, .dWrite 2 w2] } ∧
      ∀ b, b < 8 →
        (pinOf s.cfg.quadPinmap.p0 b).map (quadPinValue s.samples) = some (w0.getLsbD b) ∧
        (pinOf s.cfg.quadPinmap.p1 b).map (quadPinValue s.samples) = some (w1.getLsbD b) ∧
        (pinOf s.cfg.quadPinmap.p2 b).map (quadPinValue s.samples) = some (w2.getLsbD b)

/-! ### Timer operations -/

/-- `T.INIT`: in the reset sequence, counter and flag 0, both periods `P_INIT` (the spec's decision D17), and the timer runs (log 7); after
boot it is refused (U19, 46 R251; log 20). -/
def Obligations.TimerInitStartsTimer : Prop :=
  ∀ s : State,
    (s.seq.fstep = .boot → ∃ t, exec .tInit s = .next t ∧
      t.timer = { tcnt := 0, tper := s.cfg.pInit, tnxt := s.cfg.pInit, matchFlag := false, running := true } ∧
      t.events = s.events ++ [.tInit] ∧ keepsAllButTimer s t) ∧
    (s.seq.fstep ≠ .boot → exec .tInit s = .refused (.configuredAfterBoot .timer))

/-- `T.SETPER(v)`: `TNXT <- v` and nothing else of the timer; operand 0 is the fault `ZeroPeriod`, which records the index the
frequency dial selects (the model's choice, log 21). -/
def Obligations.SetPeriodWritesNext : Prop :=
  ∀ (s : State) (v : Period),
    (v ≠ 0 → ∃ t, exec (.tSetper v) s = .next t ∧ t.timer = { s.timer with tnxt := v } ∧
      t.events = s.events ++ [.tSetper v] ∧ keepsAllButTimer s t) ∧
    (v = 0 → exec (.tSetper v) s = .fault (.zeroPeriod (pidxField s.core.df)))

/-- A programmed period is in force from the next match on, not before (70 R313). -/
def Obligations.PeriodTakesEffectAtNextMatch : Prop :=
  ∀ (s : State) (v : Period), v ≠ 0 → s.timer.running = true →
    ∃ t u, exec (.tSetper v) s = .next t ∧ t.timer.tper = s.timer.tper ∧ t.timer.tcnt = s.timer.tcnt ∧
      timerMatch t = .next u ∧ u.timer.tper = v

/-- `T.WAITCLR`: with `MATCH` set it clears the flag and returns; without, it holds and changes nothing (46 R242). -/
def Obligations.WaitClearsMatch : Prop :=
  ∀ s : State,
    (s.timer.matchFlag = true → ∃ t, exec .tWaitclr s = .next t ∧ t.timer = { s.timer with matchFlag := false } ∧
      t.events = s.events ++ [.tWaitclr] ∧ keepsAllButTimer s t) ∧
    (s.timer.matchFlag = false → exec .tWaitclr s = .next s)

/-- While `MATCH` is clear the core's step at `WAIT` keeps it there (41 R125), and where the timer matches infinitely often `T.WAITCLR`
never waits for ever (41 R122): in a run in which the timer is fair the core leaves `WAIT`. That a hold is a step that changes
nothing is the model's (log 28), and so is the premise that the core moves infinitely often (log 30). -/
def Obligations.CoreHoldsAtWait : Prop :=
  (∀ s : State, s.nextMove = .core → s.seq.fstep = .wait → s.timer.matchFlag = false → step s = .next s.afterMove) ∧
  ∀ (ms : Nat → Move) (r : Nat → State), isRun ms r → TimerFair ms r → CoreFair ms →
    ∀ n, (r n).seq.fstep = .wait → ∃ m, n < m ∧ (r m).seq.fstep ≠ .wait

/-- One timer clock (41 R121; its construction is the spec's decision D16): a count, or at the active period a match that resets
the counter and takes over the next period. Before `T.INIT` nothing (log 7); with `TPER == 0` the fault `ZeroPeriod` (log 21). -/
def Obligations.TimerClockCountsAndMatches : Prop :=
  ∀ s : State,
    (s.timer.running = false → timerClock s = .next s) ∧
    (s.timer.running = true → s.timer.tper = 0 → timerClock s = .fault (.zeroPeriod (pidxField s.core.df))) ∧
    (s.timer.running = true → s.timer.tper ≠ 0 → (s.timer.tcnt.toNat + 1) % 65536 = s.timer.tper.toNat →
      ∃ t, timerClock s = .next t ∧
        t.timer = { s.timer with tcnt := 0, tper := s.timer.tnxt, matchFlag := true } ∧
        t.events = s.events ++ [.timerMatch] ∧ keepsAllButTimer s t) ∧
    (s.timer.running = true → s.timer.tper ≠ 0 → (s.timer.tcnt.toNat + 1) % 65536 ≠ s.timer.tper.toNat →
      ∃ t, timerClock s = .next t ∧ t.timer = { s.timer with tcnt := s.timer.tcnt + 1 } ∧
        t.events = s.events ∧ keepsAllButTimer s t)

/-- From a match to the next match pass exactly `TPER` timer clocks (41 R121; the exact count is the spec's decision D16). -/
def Obligations.IntervalIsActivePeriod : Prop :=
  ∀ s : State, s.timer.running = true → s.timer.tcnt = 0 → s.timer.tper ≠ 0 →
    (∀ k, k < s.timer.tper.toNat → ∃ t, clocks k s = .next t ∧ t.timer.tcnt.toNat = k ∧
      t.timer.matchFlag = s.timer.matchFlag ∧ t.events = s.events) ∧
    ∃ t, clocks s.timer.tper.toNat s = .next t ∧ t.timer.tcnt = 0 ∧ t.timer.matchFlag = true ∧
      t.timer.tper = s.timer.tnxt ∧ t.events = s.events ++ [.timerMatch]

/-- Untimed matches between two polls merge: after any number of them, at least one, `T.WAITCLR` returns once and the next holds (10 R31,
41 R131; that they merge is the spec's decision D34). The running bit and the hold are the model's (logs 7 and 28). -/
def Obligations.MatchesMergeIntoOne : Prop :=
  ∀ (n : Nat) (s : State), s.timer.running = true →
    ∃ t x, matchSteps (n + 1) s = .next t ∧ t.timer.matchFlag = true ∧
      t.events = s.events ++ List.replicate (n + 1) .timerMatch ∧ keepsAllButTimer s t ∧
      exec .tWaitclr t = .next x ∧ x.timer.matchFlag = false ∧ exec .tWaitclr x = .next x

/-! ### ADC operations -/

/-- `A.INIT`: in the reset sequence, no conversion in flight or done, the next one contaminated (the spec's decision D22), `ACH` and `ARES`
any values (log 9); after boot it is refused (U19, 46 R251; log 20). -/
def Obligations.AdcInitClearsFlags : Prop :=
  ∀ s : State,
    (s.seq.fstep = .boot → ∃ t, exec .aInit s = .next t ∧ t.adc.abusy = false ∧ t.adc.adone = false ∧
      t.adc.asettle = true ∧ t.events = s.events ++ [.aInit] ∧ t.core = s.core ∧ t.samples = s.samples ∧
      t.timer = s.timer ∧ t.ports = s.ports ∧ keepsBuild s t) ∧
    (s.seq.fstep ≠ .boot → exec .aInit s = .refused (.configuredAfterBoot .adc))

/-- `A.SEL(ch)`: with the ADC at rest a dial's channel is selected and `ASETTLE` set, even where it was selected already (the
spec's decision D36); with a conversion in flight the fault `AdcBusy`; any other channel is refused (log 18). -/
def Obligations.SelectSetsChannel : Prop :=
  ∀ (s : State) (ch : ChannelId),
    (s.adc.abusy = true → exec (.aSel ch) s = .fault (.adcBusy s.core.cnt)) ∧
    (s.adc.abusy = false → ch = s.cfg.chW ∨ ch = s.cfg.chE ∨ ch = s.cfg.chF →
      ∃ t, exec (.aSel ch) s = .next t ∧ t.adc = { s.adc with ach := ch, asettle := true } ∧
        t.events = s.events ++ [.aSel ch] ∧ t.core = s.core ∧ keepsAllButAdc s t) ∧
    (s.adc.abusy = false → ch ≠ s.cfg.chW → ch ≠ s.cfg.chE → ch ≠ s.cfg.chF →
      exec (.aSel ch) s = .refused (.channelWithoutInput ch))

/-- R245: `A.START` returns at once with the conversion in flight, `ARES` unchanged; during a conversion it is `AdcBusy`. -/
def Obligations.StartBeginsConversion : Prop :=
  ∀ s : State,
    (s.adc.abusy = true → exec .aStart s = .fault (.adcBusy s.core.cnt)) ∧
    (s.adc.abusy = false → ∃ t, exec .aStart s = .next t ∧ t.adc = { s.adc with abusy := true, adone := false } ∧
      t.events = s.events ++ [.aStart] ∧ t.core = s.core ∧ keepsAllButAdc s t)

/-- `A.DONE` returns `ADONE` and `A.READ` the result, and neither changes the ADC; before the conversion is done `A.READ` is the
fault `AdcNotDone`. The register that holds what they return is the model's (log 12). -/
def Obligations.DoneAndReadReturnValues : Prop :=
  ∀ s : State,
    (∃ t, exec .aDone s = .next t ∧ t.adc = s.adc ∧ t.core = { s.core with res := if s.adc.adone then 1 else 0 } ∧
      t.events = s.events ++ [.aDone s.adc.adone] ∧ keepsAllButAdc s t) ∧
    (s.adc.adone = true → ∃ t, exec .aRead s = .next t ∧ t.adc = s.adc ∧ t.core = { s.core with res := s.adc.ares } ∧
      t.events = s.events ++ [.aRead s.adc.ares] ∧ keepsAllButAdc s t) ∧
    (s.adc.adone = false → exec .aRead s = .fault (.adcNotDone s.core.cnt))

/-- `A.READBLK` starts a conversion, holds while it is in flight, and returns its result; its `A.START` during a conversion is
`AdcBusy` (46 R248; what it combines is the spec's decision D21, the two calls and the events of its parts are the model's, log 11). -/
def Obligations.BlockingReadStartsHoldsReturns : Prop :=
  ∀ s : State,
    (s.core.rdblk = false → s.adc.abusy = false →
      ∃ t, exec .aReadblk s = .next t ∧ t.adc = { s.adc with abusy := true, adone := false } ∧
        t.core = { s.core with rdblk := true } ∧ t.events = s.events ++ [.aStart] ∧
        t.cfg = s.cfg ∧ t.seq = s.seq ∧ t.samples = s.samples ∧ t.timer = s.timer ∧ t.ports = s.ports ∧ t.env = s.env) ∧
    (s.core.rdblk = false → s.adc.abusy = true → exec .aReadblk s = .fault (.adcBusy s.core.cnt)) ∧
    (s.core.rdblk = true → s.adc.adone = false → exec .aReadblk s = .next s) ∧
    (s.core.rdblk = true → s.adc.adone = true →
      ∃ t, exec .aReadblk s = .next t ∧ t.adc = s.adc ∧
        t.core = { s.core with rdblk := false, res := s.adc.ares } ∧
        t.events = s.events ++ [.aDone true, .aRead s.adc.ares, .aReadblk s.adc.ares] ∧
        t.cfg = s.cfg ∧ t.seq = s.seq ∧ t.samples = s.samples ∧ t.timer = s.timer ∧ t.ports = s.ports ∧ t.env = s.env)

/-- The ADC's completion (42 R141; its state is the spec's decision D20): a contaminated conversion returns the residual value,
a settled one the channel's, and the flags follow. With no conversion in flight the step is not enabled, and the model's move then changes
nothing (log 5). That the move carries the two values is the model's (log 8). -/
def Obligations.AdcCompletionLatchesResult : Prop :=
  ∀ (s : State) (ain residual : Dial),
    (s.adc.abusy = true →
      ∃ t v, adcComplete ain residual s = .next t ∧
        (s.adc.asettle = true → v = residual) ∧ (s.adc.asettle = false → v = ain) ∧
        t.adc = { ach := s.adc.ach, abusy := false, adone := true, ares := v, asettle := false } ∧
        t.events = s.events ++ [.adcComplete v] ∧ t.core = s.core ∧ keepsAllButAdc s t) ∧
    (s.adc.abusy = false → adcComplete ain residual s = .next s)

/-! ### Port operations -/

/-- `D.INIT`: in the reset sequence it makes the ports outputs, what they hold is any value (the spec's decision D24; log 9); after boot it
is refused (U19, 46 R251; log 20). -/
def Obligations.PortInitMakesOutputs : Prop :=
  ∀ s : State,
    (s.seq.fstep = .boot → ∃ t, exec .dInit s = .next t ∧ t.ports.outputs = true ∧ t.events = s.events ++ [.dInit] ∧
      t.core = s.core ∧ t.samples = s.samples ∧ t.timer = s.timer ∧ t.adc = s.adc ∧ keepsBuild s t) ∧
    (s.seq.fstep ≠ .boot → exec .dInit s = .refused (.configuredAfterBoot .ports))

/-- `D.WRITE(p, v)`: port `p` holds `v` and no other port changes (46 R250, 20 R63). A port that is not in use (`N_PORTS` or above, or 3,
which names none) is refused (log 19). -/
def Obligations.PortWriteSetsOnePort : Prop :=
  ∀ (s : State) (p : PortId) (v : PortWord),
    (p.toNat < s.cfg.nPorts ∧ p ≠ 3 →
      ∃ t, exec (.dWrite p v) s = .next t ∧ t.ports.read p = v ∧
        (∀ r : PortId, r ≠ 3 → r ≠ p → t.ports.read r = s.ports.read r) ∧ t.ports.outputs = s.ports.outputs ∧
        t.events = s.events ++ [.dWrite p v] ∧ keepsAllButPorts s t) ∧
    (s.cfg.nPorts ≤ p.toNat ∨ p = 3 → exec (.dWrite p v) s = .refused (.portNotInUse p))

/-! ### Rules of the whole machine -/

/-- Who writes each core register (10_state.md section 2): an operation that changes one is the operation the register's entry
names. And of the whole machine (42 R154, 44 R217): outside the reset sequence and a reset event a step changes `DW`, `DE`, `DF` only in
the `ACQ` step of a frame with the low byte of `CNT` 0x40, 0xA0, 0xE0. -/
def Obligations.CoreRegisterWriters : Prop :=
  (∀ (i : Instr) (s t : State), exec i s = .next t →
    (t.core.dw ≠ s.core.dw → i = .acqWlatch) ∧
    (t.core.de ≠ s.core.de → i = .acqElatchFsel) ∧
    (t.core.df ≠ s.core.df → i = .acqFlatch) ∧
    (t.core.cnt ≠ s.core.cnt → i = .advHold ∨ ∃ skip, i = .advInc skip) ∧
    (t.core.det ≠ s.core.det → ∃ skip, i = .advInc skip) ∧
    (t.core.tri ≠ s.core.tri → i = .tri) ∧
    (t.core.rng ≠ s.core.rng → i = .noise)) ∧
  ∀ s t : State, step s = .next t → s.seq.fstep ≠ .boot → s.nextMove ≠ .reset →
    (t.core.dw ≠ s.core.dw → s.seq.fstep = .acq ∧ s.core.cnt.toNat % 256 = 0x40) ∧
    (t.core.de ≠ s.core.de → s.seq.fstep = .acq ∧ s.core.cnt.toNat % 256 = 0xA0) ∧
    (t.core.df ≠ s.core.df → s.seq.fstep = .acq ∧ s.core.cnt.toNat % 256 = 0xE0)

/-- Who writes each device register (10_state.md sections 3 to 5): an operation that changes one is among those that the register's
entry names. `A.INIT` may change `ACH` and `ARES` because they hold no defined value after it, which the model shows by free values
(log 9). -/
def Obligations.DeviceRegisterWriters : Prop :=
  ∀ (i : Instr) (s t : State), exec i s = .next t →
    (t.timer.tcnt ≠ s.timer.tcnt → i = .tInit) ∧
    (t.timer.tper ≠ s.timer.tper → i = .tInit) ∧
    (t.timer.tnxt ≠ s.timer.tnxt → i = .tInit ∨ (∃ v, i = .tSetper v) ∨ ∃ p, i = .reload p) ∧
    (t.timer.matchFlag ≠ s.timer.matchFlag → i = .tInit ∨ i = .tWaitclr) ∧
    (t.adc.ach ≠ s.adc.ach →
      i = .aInit ∨ (∃ ch, i = .aSel ch) ∨ i = .acqWsel ∨ i = .acqEsel ∨ i = .acqElatchFsel) ∧
    (t.adc.asettle ≠ s.adc.asettle →
      i = .aInit ∨ (∃ ch, i = .aSel ch) ∨ i = .acqWsel ∨ i = .acqEsel ∨ i = .acqElatchFsel) ∧
    (t.adc.abusy ≠ s.adc.abusy ∨ t.adc.adone ≠ s.adc.adone →
      i ∈ [Instr.aInit, .aStart, .aReadblk, .acqWsel, .acqWdisc, .acqEsel, .acqEdisc, .acqElatchFsel, .acqFdisc]) ∧
    (t.adc.ares ≠ s.adc.ares → i = .aInit) ∧
    (t.ports ≠ s.ports → i = .encSingle ∨ i = .encQuad ∨ i = .dInit ∨ ∃ p v, i = .dWrite p v)

/-- Only the core writes the core registers (10_state.md section 1): a step of the timer or the ADC leaves them, the samples, the
sequencer and the ports alone. -/
def Obligations.AgentsLeaveCoreAlone : Prop :=
  ∀ s t : State, s.nextMove ≠ .core → s.nextMove ≠ .reset → step s = .next t →
    t.core = s.core ∧ t.samples = s.samples ∧ t.seq = s.seq ∧ t.ports = s.ports

/-- No step changes the parameters or the tables (10 R35, 30 R102; log 1), and the history only grows. That a reset event too keeps the
configuration and the history is the model's (log 25). -/
def Obligations.TablesNeverChange : Prop :=
  ∀ s t : State, step s = .next t → t.cfg = s.cfg ∧ ∃ es, t.events = s.events ++ es

/-- A reset event puts the block at the start of the reset sequence (70 R300) with the timer stopped (log 7), and keeps what it is
built with and the history (log 25). -/
def Obligations.ResetEventRestarts : Prop :=
  ∀ s : State, s.nextMove = .reset → ∃ t, step s = .next t ∧ t.seq.fstep = .boot ∧ t.seq.boot = .dInit ∧
    t.timer.running = false ∧ t.cfg = s.cfg ∧ t.events = s.events ++ [.reset]

/-! ### The invariant -/

/-- Every step from a state of the invariant that gives a next state keeps it: `ABUSY` and `ADONE` are never both 1 (10 R32), `RNG` is
never 0 (10 R25), no period is 0, no conversion is in flight in the idle windows of the cycle (42 R156), and what the model adds
(logs 7, 10, 11, 14). A reset event (70 R300) gives the registers no defined value (10 R39, U7): that the invariant holds after one, `RNG`
and the periods not 0 and the ADC at rest, rests on the values that the model chose for them (log 4) and on its reset event (log 25). -/
def Obligations.InvariantKeptByEveryStep : Prop :=
  ∀ s t : State, Inv s → step s = .next t → Inv t

/-- The state right after reset is in the invariant, for every admissible choice of the parameters. The register values there that
the spec does not give are the model's (log 4). -/
def Obligations.InvariantHoldsAtReset : Prop :=
  (∀ cfg : Config, cfg.good = true → Inv (State.resetOf cfg)) ∧ Inv State.reset

/-- From a state of the invariant the only way to stop is `AdcNotDone`: faults 2 to 5 and the refusals are never reached
(60 R272). -/
def Obligations.OnlyUnfinishedReadsFault : Prop :=
  ∀ s : State, Inv s → (∃ t, step s = .next t) ∨ step s = .fault (.adcNotDone s.core.cnt)

/-- Under `ADC_FAST` at its move no step from a state of the invariant stops (42 R155, 60 R272). A blocking read that spins for ever is no stop, and the
premise does not exclude it (log 31). -/
def Obligations.FastAdcNeverStops : Prop :=
  ∀ s : State, Inv s → AdcFast s.nextMove s → ∃ t, step s = .next t

/-! ### The reset sequence and the frame -/

/-- The reset sequence, where each blocking read is answered at once: after its 25 steps the state is that of entry to frame 0
(70 R303), for every admissible choice of parameters and readings, and the core's and the ADC's events are those of the sequence in
order (70 R301). Its order is the spec's decision D22; the events of a blocking read's parts are the model's (log 11), and so are the
script (log 5) and the place of the reset sequence's start (log 4). -/
def Obligations.ResetSequenceReachesFrameZero : Prop :=
  ∀ (cfg : Config) (w e f x : Dial) (rest : List Move), cfg.good = true →
    ∃ t, run 25 { State.resetOf cfg with env := { script := bootScript w e f x ++ rest, draws := 0 } } = .next t ∧
      Booted t w e f ∧ t.cfg = cfg ∧ t.env.script = rest ∧
      t.events = [.dInit, .aInit, .tInit] ++
        ([(cfg.chW, w), (cfg.chE, e), (cfg.chF, f)].flatMap fun p =>
          [.aSel p.1, .aStart, .adcComplete x, .aDone true, .aRead x, .aReadblk x,
           .aStart, .adcComplete p.2, .aDone true, .aRead p.2, .aReadblk p.2])

/-- One frame of `SINGLE` mode in which no other agent moves is the function the spec describes (30 R104, 41 R123): the period the
frequency dial selects is programmed, the variant's sample, quantized, is on the port of `SINGLE_PINMAP` (the spec's decision D3; the
map's form is log 29), the generators' state, the dials, the counters, the ADC and the events are as their rules say, and the core waits
again. Every part reads the dials as they stood before the frame. How the frame is cut into steps is the spec's decision D28 (log 10), the
place of the sample and of a returned value the model's (logs 13 and 12), the script log 5. -/
def Obligations.FrameComputesItsSample : Prop :=
  ∀ (s : State) (rest : List Move), GoodConfig s → s.cfg.outputMode = .single → s.seq.fstep = .wait → s.seq.part = 0 →
    s.timer.matchFlag = true → adcReady s → s.env.script = coreMoves (frameSteps s + 2) ++ rest →
    ∃ t v g q,
      run (frameSteps s + 2) s = .next t ∧
      s.cfg.pt[s.core.df.toNat / 2]? = some v ∧
      generated s (s.cfg.variantCode.variantOf (variantField s.core.dw)) = some g ∧
      quantized s.cfg s.core.de g = some q ∧
      t.timer = { s.timer with matchFlag := false, tnxt := v } ∧
      t.ports = s.ports.write s.cfg.singlePinmap.port (singleWord s.cfg q) ∧
      t.samples = { s.samples with mono := q } ∧
      t.adc = frameAdc s ∧
      t.core.tri = (if s.cfg.variantCode.variantOf (variantField s.core.dw) = .triangle then g else s.core.tri) ∧
      t.core.rng = (if s.cfg.variantCode.variantOf (variantField s.core.dw) = .noise
        then xorShift s.cfg.xsA s.cfg.xsB s.cfg.xsC s.core.rng else s.core.rng) ∧
      t.core.cnt = s.core.cnt + 1 ∧
      t.core.det = (if s.core.cnt.toNat % 128 = 0 then s.core.det else s.core.det + 1) ∧
      latched s t.core ∧ t.core.res = frameResult s ∧ t.core.rdblk = s.core.rdblk ∧
      t.events = s.events ++ [.tWaitclr, .tSetper v, .dWrite s.cfg.singlePinmap.port (singleWord s.cfg q)] ++
        frameAcqEvents s ∧
      t.seq = s.seq ∧ t.cfg = s.cfg ∧ t.env = { s.env with script := rest }

/-- One frame of `QUAD` mode in which no other agent moves (45 R222, 43 R190, 44 R216; the spec's decision D32): the four samples, each
quantized, are on the three ports, written in the order 0, 1, 2 (the spec's decision D4), and the rest of the frame is as in `SINGLE`
mode. That each channel is a step of its own is the model's (log 14); how the frame is cut into steps is the spec's decision D28 (log
10), the place of the samples and of a returned value the model's (logs 13 and 12), the script log 5. -/
def Obligations.QuadFramePacksFourSamples : Prop :=
  ∀ (s : State) (rest : List Move), GoodConfig s → s.cfg.outputMode = .quad → s.seq.fstep = .wait → s.seq.part = 0 →
    s.seq.chan = .sine → s.timer.matchFlag = true → adcReady s → s.env.script = coreMoves (frameSteps s + 8) ++ rest →
    ∃ t v x,
      run (frameSteps s + 8) s = .next t ∧
      s.cfg.pt[s.core.df.toNat / 2]? = some v ∧
      (generated s .sine).bind (quantized s.cfg s.core.de) = some x.sine ∧
      (generated s .triangle).bind (quantized s.cfg s.core.de) = some x.tri ∧
      (generated s .saw).bind (quantized s.cfg s.core.de) = some x.saw ∧
      (generated s .pulse).bind (quantized s.cfg s.core.de) = some x.pulse ∧
      x.mono = s.samples.mono ∧ t.samples = x ∧
      t.timer = { s.timer with matchFlag := false, tnxt := v } ∧
      t.ports = { s.ports with p0 := quadWord s.cfg.quadPinmap.p0 x, p1 := quadWord s.cfg.quadPinmap.p1 x,
                               p2 := quadWord s.cfg.quadPinmap.p2 x } ∧
      t.adc = frameAdc s ∧
      some t.core.tri = generated s .triangle ∧ t.core.rng = s.core.rng ∧
      t.core.cnt = s.core.cnt + 1 ∧
      t.core.det = (if s.core.cnt.toNat % 128 = 0 then s.core.det else s.core.det + 1) ∧
      latched s t.core ∧ t.core.res = frameResult s ∧ t.core.rdblk = s.core.rdblk ∧
      t.events = s.events ++ [.tWaitclr, .tSetper v, .dWrite 0 (quadWord s.cfg.quadPinmap.p0 x),
        .dWrite 1 (quadWord s.cfg.quadPinmap.p1 x), .dWrite 2 (quadWord s.cfg.quadPinmap.p2 x)] ++ frameAcqEvents s ∧
      t.seq = s.seq ∧ t.cfg = s.cfg ∧ t.env = { s.env with script := rest }
end

