-- ==== Sys2Proof/Laws/Config.lean ====
section
/-! SUPPORT. What good parameters give (60_exceptions.md R272, 20_memory.md R64, R65, R67), one fact each. -/

namespace Sys2Proof

/-- Good parameters meet every constraint. -/
theorem Config.good_meets {cfg : Config} (h : cfg.good = true) (p : Param) : cfg.meets p = true := by
  have hall : ∀ q ∈ checkedParams, cfg.meets q = true := by
    intro q hq
    have := List.find?_eq_none.1 (Option.isNone_iff_eq_none.1 h) q hq
    simpa using this
  exact hall p (by cases p <;> decide)

theorem Config.good_firstBad {cfg : Config} (h : cfg.good = true) : cfg.firstBad = none :=
  Option.isNone_iff_eq_none.1 h

theorem Config.good_seed {cfg : Config} (h : cfg.good = true) : cfg.seed ≠ 0 := by
  simpa [Config.meets] using good_meets h .seed

theorem Config.good_pInit {cfg : Config} (h : cfg.good = true) : cfg.pInit ≠ 0 := by
  simpa [Config.meets] using good_meets h .pInit

theorem Config.good_shifts {cfg : Config} (h : cfg.good = true) :
    (1 ≤ cfg.xsA ∧ cfg.xsA ≤ 31) ∧ (1 ≤ cfg.xsB ∧ cfg.xsB ≤ 31) ∧ (1 ≤ cfg.xsC ∧ cfg.xsC ≤ 31) := by
  have ha := good_meets h .xsA
  have hb := good_meets h .xsB
  have hc := good_meets h .xsC
  simp only [Config.meets, goodShift, Bool.and_eq_true, decide_eq_true_eq] at ha hb hc
  exact ⟨ha, hb, hc⟩

theorem Config.good_sineLen {cfg : Config} (h : cfg.good = true) : 0 < cfg.st.length := by
  have := good_meets h .sineLen
  simp only [Config.meets, decide_eq_true_eq] at this
  omega

theorem Config.good_periodTable {cfg : Config} (h : cfg.good = true) :
    cfg.pt.length = 512 ∧ ∀ v ∈ cfg.pt, v ≠ 0 := by
  have := good_meets h .pt
  simp only [Config.meets, goodPeriodTable, Bool.and_eq_true, decide_eq_true_eq, List.all_eq_true] at this
  exact ⟨this.1.1, this.2⟩

theorem Config.good_variantCode {cfg : Config} (h : cfg.good = true) : cfg.variantCode.bijective = true :=
  good_meets h .variantCode

/-- A good quantization table has 32 entries, each below 32, idempotent and rising. -/
theorem goodQuantTable_facts {n : Nat} {q : List (BitVec 8)} (h : goodQuantTable n q = true) :
    q.length = 32 ∧ (∀ v ∈ q, v < 32#8) ∧ (∀ v ∈ q, q[v.toNat]? = some v) ∧ nonDecreasing q = true := by
  simp only [goodQuantTable, idempotentTable, Bool.and_eq_true, decide_eq_true_eq, List.all_eq_true,
    beq_iff_eq] at h
  exact ⟨h.1.1.1.1, h.1.1.1.2, h.1.1.2, h.1.2⟩

theorem Config.good_q16 {cfg : Config} (h : cfg.good = true) : goodQuantTable 16 cfg.q16 = true := good_meets h .q16
theorem Config.good_q8 {cfg : Config} (h : cfg.good = true) : goodQuantTable 8 cfg.q8 = true := good_meets h .q8
theorem Config.good_q4 {cfg : Config} (h : cfg.good = true) : goodQuantTable 4 cfg.q4 = true := good_meets h .q4

/-- In a rising list a later entry is not below an earlier one. -/
theorem nonDecreasing_get {q : List (BitVec w)} (h : nonDecreasing q = true) :
    ∀ (i j : Nat) (a b : BitVec w), i ≤ j → q[i]? = some a → q[j]? = some b → a ≤ b := by
  induction q with
  | nil => intro i j a b _ hi; simp at hi
  | cons x t ih =>
    cases t with
    | nil =>
      intro i j a b hij hi hj
      cases i <;> cases j <;> simp_all
    | cons y t =>
      simp only [nonDecreasing, Bool.and_eq_true, decide_eq_true_eq] at h
      have ih := ih h.2
      intro i j a b hij hi hj
      cases i with
      | zero =>
        cases j with
        | zero => simp_all
        | succ j =>
          have hxa : x = a := by simpa using hi
          subst hxa
          exact BitVec.le_trans h.1 (ih 0 j y b (Nat.zero_le _) (by simp) (by simpa using hj))
      | succ i =>
        cases j with
        | zero => omega
        | succ j => exact ih i j a b (by omega) (by simpa using hi) (by simpa using hj)

/-- The spec's default parameters are good. -/
theorem Config.default_good : Config.default.good = true := by decide +kernel

end Sys2Proof
end

