-- ==== Sys2Proof/Laws/State.lean ====
section
/-! SUPPORT. One lemma per field of State and per update of it, so that no proof unfolds an update. -/

namespace Sys2Proof.Machine

@[simp] theorem State.setCore_cfg (s : State) (c : CoreRegs) : (s.setCore c).cfg = s.cfg := rfl
@[simp] theorem State.setCore_core (s : State) (c : CoreRegs) : (s.setCore c).core = c := rfl
@[simp] theorem State.setCore_samples (s : State) (c : CoreRegs) : (s.setCore c).samples = s.samples := rfl
@[simp] theorem State.setCore_seq (s : State) (c : CoreRegs) : (s.setCore c).seq = s.seq := rfl
@[simp] theorem State.setCore_timer (s : State) (c : CoreRegs) : (s.setCore c).timer = s.timer := rfl
@[simp] theorem State.setCore_adc (s : State) (c : CoreRegs) : (s.setCore c).adc = s.adc := rfl
@[simp] theorem State.setCore_ports (s : State) (c : CoreRegs) : (s.setCore c).ports = s.ports := rfl
@[simp] theorem State.setCore_env (s : State) (c : CoreRegs) : (s.setCore c).env = s.env := rfl
@[simp] theorem State.setCore_events (s : State) (c : CoreRegs) : (s.setCore c).events = s.events := rfl

@[simp] theorem State.setSamples_cfg (s : State) (x : Samples) : (s.setSamples x).cfg = s.cfg := rfl
@[simp] theorem State.setSamples_core (s : State) (x : Samples) : (s.setSamples x).core = s.core := rfl
@[simp] theorem State.setSamples_samples (s : State) (x : Samples) : (s.setSamples x).samples = x := rfl
@[simp] theorem State.setSamples_seq (s : State) (x : Samples) : (s.setSamples x).seq = s.seq := rfl
@[simp] theorem State.setSamples_timer (s : State) (x : Samples) : (s.setSamples x).timer = s.timer := rfl
@[simp] theorem State.setSamples_adc (s : State) (x : Samples) : (s.setSamples x).adc = s.adc := rfl
@[simp] theorem State.setSamples_ports (s : State) (x : Samples) : (s.setSamples x).ports = s.ports := rfl
@[simp] theorem State.setSamples_env (s : State) (x : Samples) : (s.setSamples x).env = s.env := rfl
@[simp] theorem State.setSamples_events (s : State) (x : Samples) : (s.setSamples x).events = s.events := rfl

@[simp] theorem State.setSeq_cfg (s : State) (q : Sequencer) : (s.setSeq q).cfg = s.cfg := rfl
@[simp] theorem State.setSeq_core (s : State) (q : Sequencer) : (s.setSeq q).core = s.core := rfl
@[simp] theorem State.setSeq_samples (s : State) (q : Sequencer) : (s.setSeq q).samples = s.samples := rfl
@[simp] theorem State.setSeq_seq (s : State) (q : Sequencer) : (s.setSeq q).seq = q := rfl
@[simp] theorem State.setSeq_timer (s : State) (q : Sequencer) : (s.setSeq q).timer = s.timer := rfl
@[simp] theorem State.setSeq_adc (s : State) (q : Sequencer) : (s.setSeq q).adc = s.adc := rfl
@[simp] theorem State.setSeq_ports (s : State) (q : Sequencer) : (s.setSeq q).ports = s.ports := rfl
@[simp] theorem State.setSeq_env (s : State) (q : Sequencer) : (s.setSeq q).env = s.env := rfl
@[simp] theorem State.setSeq_events (s : State) (q : Sequencer) : (s.setSeq q).events = s.events := rfl

@[simp] theorem State.setTimer_cfg (s : State) (t : Timer) : (s.setTimer t).cfg = s.cfg := rfl
@[simp] theorem State.setTimer_core (s : State) (t : Timer) : (s.setTimer t).core = s.core := rfl
@[simp] theorem State.setTimer_samples (s : State) (t : Timer) : (s.setTimer t).samples = s.samples := rfl
@[simp] theorem State.setTimer_seq (s : State) (t : Timer) : (s.setTimer t).seq = s.seq := rfl
@[simp] theorem State.setTimer_timer (s : State) (t : Timer) : (s.setTimer t).timer = t := rfl
@[simp] theorem State.setTimer_adc (s : State) (t : Timer) : (s.setTimer t).adc = s.adc := rfl
@[simp] theorem State.setTimer_ports (s : State) (t : Timer) : (s.setTimer t).ports = s.ports := rfl
@[simp] theorem State.setTimer_env (s : State) (t : Timer) : (s.setTimer t).env = s.env := rfl
@[simp] theorem State.setTimer_events (s : State) (t : Timer) : (s.setTimer t).events = s.events := rfl

@[simp] theorem State.setAdc_cfg (s : State) (a : Adc) : (s.setAdc a).cfg = s.cfg := rfl
@[simp] theorem State.setAdc_core (s : State) (a : Adc) : (s.setAdc a).core = s.core := rfl
@[simp] theorem State.setAdc_samples (s : State) (a : Adc) : (s.setAdc a).samples = s.samples := rfl
@[simp] theorem State.setAdc_seq (s : State) (a : Adc) : (s.setAdc a).seq = s.seq := rfl
@[simp] theorem State.setAdc_timer (s : State) (a : Adc) : (s.setAdc a).timer = s.timer := rfl
@[simp] theorem State.setAdc_adc (s : State) (a : Adc) : (s.setAdc a).adc = a := rfl
@[simp] theorem State.setAdc_ports (s : State) (a : Adc) : (s.setAdc a).ports = s.ports := rfl
@[simp] theorem State.setAdc_env (s : State) (a : Adc) : (s.setAdc a).env = s.env := rfl
@[simp] theorem State.setAdc_events (s : State) (a : Adc) : (s.setAdc a).events = s.events := rfl

@[simp] theorem State.setPorts_cfg (s : State) (p : Ports) : (s.setPorts p).cfg = s.cfg := rfl
@[simp] theorem State.setPorts_core (s : State) (p : Ports) : (s.setPorts p).core = s.core := rfl
@[simp] theorem State.setPorts_samples (s : State) (p : Ports) : (s.setPorts p).samples = s.samples := rfl
@[simp] theorem State.setPorts_seq (s : State) (p : Ports) : (s.setPorts p).seq = s.seq := rfl
@[simp] theorem State.setPorts_timer (s : State) (p : Ports) : (s.setPorts p).timer = s.timer := rfl
@[simp] theorem State.setPorts_adc (s : State) (p : Ports) : (s.setPorts p).adc = s.adc := rfl
@[simp] theorem State.setPorts_ports (s : State) (p : Ports) : (s.setPorts p).ports = p := rfl
@[simp] theorem State.setPorts_env (s : State) (p : Ports) : (s.setPorts p).env = s.env := rfl
@[simp] theorem State.setPorts_events (s : State) (p : Ports) : (s.setPorts p).events = s.events := rfl

@[simp] theorem State.setEnv_cfg (s : State) (e : Environment) : (s.setEnv e).cfg = s.cfg := rfl
@[simp] theorem State.setEnv_core (s : State) (e : Environment) : (s.setEnv e).core = s.core := rfl
@[simp] theorem State.setEnv_samples (s : State) (e : Environment) : (s.setEnv e).samples = s.samples := rfl
@[simp] theorem State.setEnv_seq (s : State) (e : Environment) : (s.setEnv e).seq = s.seq := rfl
@[simp] theorem State.setEnv_timer (s : State) (e : Environment) : (s.setEnv e).timer = s.timer := rfl
@[simp] theorem State.setEnv_adc (s : State) (e : Environment) : (s.setEnv e).adc = s.adc := rfl
@[simp] theorem State.setEnv_ports (s : State) (e : Environment) : (s.setEnv e).ports = s.ports := rfl
@[simp] theorem State.setEnv_env (s : State) (e : Environment) : (s.setEnv e).env = e := rfl
@[simp] theorem State.setEnv_events (s : State) (e : Environment) : (s.setEnv e).events = s.events := rfl

@[simp] theorem State.emit_cfg (s : State) (e : Event) : (s.emit e).cfg = s.cfg := rfl
@[simp] theorem State.emit_core (s : State) (e : Event) : (s.emit e).core = s.core := rfl
@[simp] theorem State.emit_samples (s : State) (e : Event) : (s.emit e).samples = s.samples := rfl
@[simp] theorem State.emit_seq (s : State) (e : Event) : (s.emit e).seq = s.seq := rfl
@[simp] theorem State.emit_timer (s : State) (e : Event) : (s.emit e).timer = s.timer := rfl
@[simp] theorem State.emit_adc (s : State) (e : Event) : (s.emit e).adc = s.adc := rfl
@[simp] theorem State.emit_ports (s : State) (e : Event) : (s.emit e).ports = s.ports := rfl
@[simp] theorem State.emit_env (s : State) (e : Event) : (s.emit e).env = s.env := rfl
@[simp] theorem State.emit_events (s : State) (e : Event) : (s.emit e).events = s.events ++ [e] := rfl

@[simp] theorem State.drew_cfg (s : State) (n : Nat) : (s.drew n).cfg = s.cfg := rfl
@[simp] theorem State.drew_core (s : State) (n : Nat) : (s.drew n).core = s.core := rfl
@[simp] theorem State.drew_samples (s : State) (n : Nat) : (s.drew n).samples = s.samples := rfl
@[simp] theorem State.drew_seq (s : State) (n : Nat) : (s.drew n).seq = s.seq := rfl
@[simp] theorem State.drew_timer (s : State) (n : Nat) : (s.drew n).timer = s.timer := rfl
@[simp] theorem State.drew_adc (s : State) (n : Nat) : (s.drew n).adc = s.adc := rfl
@[simp] theorem State.drew_ports (s : State) (n : Nat) : (s.drew n).ports = s.ports := rfl
@[simp] theorem State.drew_env (s : State) (n : Nat) : (s.drew n).env = { s.env with draws := s.env.draws + n } := rfl
@[simp] theorem State.drew_events (s : State) (n : Nat) : (s.drew n).events = s.events := rfl

@[simp] theorem State.setPart_cfg (s : State) (k : Fin 3) : (s.setPart k).cfg = s.cfg := rfl
@[simp] theorem State.setPart_core (s : State) (k : Fin 3) : (s.setPart k).core = s.core := rfl
@[simp] theorem State.setPart_samples (s : State) (k : Fin 3) : (s.setPart k).samples = s.samples := rfl
@[simp] theorem State.setPart_timer (s : State) (k : Fin 3) : (s.setPart k).timer = s.timer := rfl
@[simp] theorem State.setPart_adc (s : State) (k : Fin 3) : (s.setPart k).adc = s.adc := rfl
@[simp] theorem State.setPart_ports (s : State) (k : Fin 3) : (s.setPart k).ports = s.ports := rfl
@[simp] theorem State.setPart_env (s : State) (k : Fin 3) : (s.setPart k).env = s.env := rfl
@[simp] theorem State.setPart_events (s : State) (k : Fin 3) : (s.setPart k).events = s.events := rfl
@[simp] theorem State.setPart_seq (s : State) (k : Fin 3) : (s.setPart k).seq = { s.seq with part := k } := rfl

@[simp] theorem State.putSample_cfg (s : State) (v : Sample) : (s.putSample v).cfg = s.cfg := by
  unfold State.putSample; split <;> [rfl; (split <;> rfl)]
@[simp] theorem State.putSample_core (s : State) (v : Sample) : (s.putSample v).core = s.core := by
  unfold State.putSample; split <;> [rfl; (split <;> rfl)]
@[simp] theorem State.putSample_seq (s : State) (v : Sample) : (s.putSample v).seq = s.seq := by
  unfold State.putSample; split <;> [rfl; (split <;> rfl)]
@[simp] theorem State.putSample_timer (s : State) (v : Sample) : (s.putSample v).timer = s.timer := by
  unfold State.putSample; split <;> [rfl; (split <;> rfl)]
@[simp] theorem State.putSample_adc (s : State) (v : Sample) : (s.putSample v).adc = s.adc := by
  unfold State.putSample; split <;> [rfl; (split <;> rfl)]
@[simp] theorem State.putSample_ports (s : State) (v : Sample) : (s.putSample v).ports = s.ports := by
  unfold State.putSample; split <;> [rfl; (split <;> rfl)]
@[simp] theorem State.putSample_env (s : State) (v : Sample) : (s.putSample v).env = s.env := by
  unfold State.putSample; split <;> [rfl; (split <;> rfl)]
@[simp] theorem State.putSample_events (s : State) (v : Sample) : (s.putSample v).events = s.events := by
  unfold State.putSample; split <;> [rfl; (split <;> rfl)]

/-- What is put as the sample is the sample. -/
@[simp] theorem State.sample_putSample (s : State) (v : Sample) : (s.putSample v).sample = v := by
  unfold State.sample
  simp only [State.putSample_cfg, State.putSample_seq]
  unfold State.putSample
  split <;> [rfl; (split <;> rfl)]

/-- The sample depends on the configuration, the channel and the samples alone. -/
theorem State.sample_congr {s t : State} (hc : t.cfg = s.cfg) (hq : t.seq = s.seq) (hx : t.samples = s.samples) :
    t.sample = s.sample := by
  unfold State.sample
  rw [hc, hq, hx]

@[simp] theorem State.sample_setCore (s : State) (c : CoreRegs) : (s.setCore c).sample = s.sample := rfl

/-! ### The moves -/

@[simp] theorem State.nextMove_cons {s : State} {m : Move} {r : List Move} (h : s.env.script = m :: r) :
    s.nextMove = m := by
  unfold State.nextMove; rw [h]

theorem State.afterMove_cons {s : State} {m : Move} {r : List Move} (h : s.env.script = m :: r) :
    s.afterMove = s.setEnv { s.env with script := r } := by
  unfold State.afterMove; rw [h]

@[simp] theorem State.afterMove_cfg (s : State) : s.afterMove.cfg = s.cfg := by
  unfold State.afterMove; split <;> rfl
@[simp] theorem State.afterMove_core (s : State) : s.afterMove.core = s.core := by
  unfold State.afterMove; split <;> rfl
@[simp] theorem State.afterMove_samples (s : State) : s.afterMove.samples = s.samples := by
  unfold State.afterMove; split <;> rfl
@[simp] theorem State.afterMove_seq (s : State) : s.afterMove.seq = s.seq := by
  unfold State.afterMove; split <;> rfl
@[simp] theorem State.afterMove_timer (s : State) : s.afterMove.timer = s.timer := by
  unfold State.afterMove; split <;> rfl
@[simp] theorem State.afterMove_adc (s : State) : s.afterMove.adc = s.adc := by
  unfold State.afterMove; split <;> rfl
@[simp] theorem State.afterMove_ports (s : State) : s.afterMove.ports = s.ports := by
  unfold State.afterMove; split <;> rfl
@[simp] theorem State.afterMove_events (s : State) : s.afterMove.events = s.events := by
  unfold State.afterMove; split <;> rfl

/-! ### The next position -/

@[simp] theorem State.advance_cfg (s : State) : s.advance.cfg = s.cfg := by
  unfold State.advance; split <;> rfl
@[simp] theorem State.advance_samples (s : State) : s.advance.samples = s.samples := by
  unfold State.advance; split <;> rfl
@[simp] theorem State.advance_timer (s : State) : s.advance.timer = s.timer := by
  unfold State.advance; split <;> rfl
@[simp] theorem State.advance_adc (s : State) : s.advance.adc = s.adc := by
  unfold State.advance; split <;> rfl
@[simp] theorem State.advance_ports (s : State) : s.advance.ports = s.ports := by
  unfold State.advance; split <;> rfl
@[simp] theorem State.advance_env (s : State) : s.advance.env = s.env := by
  unfold State.advance; split <;> rfl
@[simp] theorem State.advance_events (s : State) : s.advance.events = s.events := by
  unfold State.advance; split <;> rfl

@[simp] theorem State.advance_seq (s : State) : s.advance.seq = s.seq.after s.cfg.outputMode := by
  unfold State.advance; split <;> rfl

/-- Outside the reset sequence going on writes no core register. -/
theorem State.advance_core {s : State} (h : s.seq.fstep ≠ .boot) : s.advance.core = s.core := by
  unfold State.advance
  split
  · contradiction
  · rfl

/-- In the reset sequence a kept read is latched. -/
theorem State.advance_core_boot {s : State} (h : s.seq.fstep = .boot) :
    s.advance.core = bootLatch s.seq.boot s.core := by
  unfold State.advance
  rw [h]; rfl

end Sys2Proof.Machine
end

