-- ==== Sys2Proof/Laws/Ops.lean ====
section
/-! SUPPORT. One lemma per shared operation: what it can do when it gives a next state, and when it stops. -/

namespace Sys2Proof.Machine

/-! ### Sequencing -/

@[simp] theorem andThen_next (s : State) (k : State → Result) : andThen (.next s) k = k s := rfl
@[simp] theorem andThen_fault (f : Fault) (k : State → Result) : andThen (.fault f) k = .fault f := rfl
@[simp] theorem andThen_refused (q : Refusal) (k : State → Result) : andThen (.refused q) k = .refused q := rfl

/-- A sequence gives a next state exactly where both parts do. -/
theorem andThen_eq_next {r : Result} {k : State → Result} {t : State} :
    andThen r k = .next t ↔ ∃ u, r = .next u ∧ k u = .next t := by
  cases r <;> simp

/-- A sequence faults where one of its parts does. -/
theorem andThen_eq_fault {r : Result} {k : State → Result} {f : Fault} :
    andThen r k = .fault f ↔ r = .fault f ∨ ∃ u, r = .next u ∧ k u = .fault f := by
  cases r <;> simp

/-- A sequence is refused where one of its parts is. -/
theorem andThen_eq_refused {r : Result} {k : State → Result} {q : Refusal} :
    andThen r k = .refused q ↔ r = .refused q ∨ ∃ u, r = .next u ∧ k u = .refused q := by
  cases r <;> simp

/-- One HAL operation of a composite operation gives a next state exactly where it does, and then counts it. -/
theorem stage_eq_next {k : Fin 3} {r : Result} {t : State} :
    stage k r = .next t ↔ ∃ u, r = .next u ∧ t = u.setPart k := by
  unfold stage
  rw [andThen_eq_next]
  simp only [Host.Outcome.next.injEq, eq_comm]

/-- One HAL operation of a composite operation faults exactly where it does. -/
theorem stage_eq_fault {k : Fin 3} {r : Result} {f : Fault} : stage k r = .fault f ↔ r = .fault f := by
  unfold stage
  rw [andThen_eq_fault]
  simp

/-- One HAL operation of a composite operation is refused exactly where it is. -/
theorem stage_eq_refused {k : Fin 3} {r : Result} {q : Refusal} : stage k r = .refused q ↔ r = .refused q := by
  unfold stage
  rw [andThen_eq_refused]
  simp

/-! ### Tables and ports -/

/-- A table read in range goes on with the element. -/
theorem memRead_some {space : TableSpace} {t : List (BitVec w)} {idx : Nat} {k : BitVec w → Result} {v : BitVec w}
    (h : t[idx]? = some v) : memRead space t idx k = k v := by
  unfold memRead; rw [h]

/-- A table read out of range is the fault `TableIndex`. -/
theorem memRead_none {space : TableSpace} {t : List (BitVec w)} {idx : Nat} {k : BitVec w → Result}
    (h : t.length ≤ idx) : memRead space t idx k = .fault (.tableIndex space idx) := by
  unfold memRead; rw [List.getElem?_eq_none h]

/-- A table read that gives a next state has read an element. -/
theorem memRead_eq_next {space : TableSpace} {t : List (BitVec w)} {idx : Nat} {k : BitVec w → Result} {s : State} :
    memRead space t idx k = .next s ↔ ∃ v, t[idx]? = some v ∧ k v = .next s := by
  unfold memRead
  cases t[idx]? <;> simp

/-- A port write gives a next state exactly for a port in use, and then changes that port and the history. -/
theorem memWritePort_eq_next {p : PortId} {v : PortWord} {s t : State} :
    memWritePort p v s = .next t ↔
      s.portInUse p = true ∧ t = (s.setPorts (s.ports.write p v)).emit (.dWrite p v) := by
  unfold memWritePort
  split <;> (simp_all; try exact eq_comm)

/-- A port write never faults. -/
theorem memWritePort_ne_fault {p : PortId} {v : PortWord} {s : State} {f : Fault} : memWritePort p v s ≠ .fault f := by
  unfold memWritePort
  split <;> simp

/-- The other ports keep their words. -/
theorem Ports.read_write_other {q : Ports} {p r : PortId} {v : PortWord} (hp : p ≠ 3) (hr : r ≠ 3) (h : r ≠ p) :
    (q.write p v).read r = q.read r := by
  have three : ∀ x : PortId, x ≠ 3 → x = 0 ∨ x = 1 ∨ x = 2 := by decide
  have hp' := three p hp
  have hr' := three r hr
  rcases hp' with rfl | rfl | rfl <;> rcases hr' with rfl | rfl | rfl <;>
    first | rfl | exact absurd rfl h

/-- A port holds the word last written to it. -/
theorem Ports.read_write_same (q : Ports) (p : PortId) (v : PortWord) : (q.write p v).read p = v := by
  unfold Ports.write Ports.read
  split <;> simp_all

/-- `D.WRITE` leaves the pins' direction alone. -/
@[simp] theorem Ports.write_outputs (q : Ports) (p : PortId) (v : PortWord) : (q.write p v).outputs = q.outputs := by
  unfold Ports.write
  split <;> rfl

/-! ### The HAL operations' shared bodies -/

/-- A configuration gives a next state exactly in the reset sequence. -/
theorem configure_eq_next {p : Peripheral} {t s u : State} :
    configure p t s = .next u ↔ s.seq.fstep = .boot ∧ u = t := by
  unfold configure
  split <;> (simp_all; try exact eq_comm)

/-- A configuration is refused exactly after the reset sequence. -/
theorem configure_eq_refused {p : Peripheral} {t s : State} {q : Refusal} :
    configure p t s = .refused q ↔ s.seq.fstep ≠ .boot ∧ q = .configuredAfterBoot p := by
  unfold configure
  split <;> (simp_all; try exact eq_comm)

/-- A configuration never faults. -/
theorem configure_ne_fault {p : Peripheral} {t s : State} {f : Fault} : configure p t s ≠ .fault f := by
  unfold configure
  split <;> simp

/-- `T.SETPER` gives a next state exactly for a nonzero operand. -/
theorem setPeriod_eq_next {pidx : BitVec 9} {v : Period} {s t : State} :
    setPeriod pidx v s = .next t ↔ v ≠ 0 ∧ t = (s.setTimer { s.timer with tnxt := v }).emit (.tSetper v) := by
  unfold setPeriod
  split <;> (simp_all; try exact eq_comm)

/-- `T.SETPER` faults exactly on operand 0. -/
theorem setPeriod_eq_fault {pidx : BitVec 9} {v : Period} {s : State} {f : Fault} :
    setPeriod pidx v s = .fault f ↔ v = 0 ∧ f = .zeroPeriod pidx := by
  unfold setPeriod
  split <;> (simp_all; try exact eq_comm)

/-- `A.SEL` gives a next state exactly with the ADC at rest and a dial's channel. -/
theorem selectChannel_eq_next {ch : ChannelId} {s t : State} :
    selectChannel ch s = .next t ↔
      s.adc.abusy = false ∧ s.dialChannel ch = true ∧ t = (s.setAdc (s.adc.selected ch)).emit (.aSel ch) := by
  unfold selectChannel
  split
  · simp_all
  · split <;> (simp_all; try exact eq_comm)

/-- `A.SEL` faults exactly with a conversion in flight. -/
theorem selectChannel_eq_fault {ch : ChannelId} {s : State} {f : Fault} :
    selectChannel ch s = .fault f ↔ s.adc.abusy = true ∧ f = .adcBusy s.core.cnt := by
  unfold selectChannel
  split
  · simp_all; exact eq_comm
  · split <;> simp_all

/-- `A.START` gives a next state exactly with the ADC at rest. -/
theorem startConversion_eq_next {s t : State} :
    startConversion s = .next t ↔ s.adc.abusy = false ∧ t = (s.setAdc s.adc.started).emit .aStart := by
  unfold startConversion
  split <;> (simp_all; try exact eq_comm)

/-- `A.START` faults exactly with a conversion in flight. -/
theorem startConversion_eq_fault {s : State} {f : Fault} :
    startConversion s = .fault f ↔ s.adc.abusy = true ∧ f = .adcBusy s.core.cnt := by
  unfold startConversion
  split <;> (simp_all; try exact eq_comm)

/-- `A.START` is never refused. -/
theorem startConversion_ne_refused {s : State} {q : Refusal} : startConversion s ≠ .refused q := by
  unfold startConversion
  split <;> simp

/-- `A.READ` gives a next state exactly with `ADONE` set. -/
theorem readResult_eq_next {s t : State} :
    readResult s = .next t ↔
      s.adc.adone = true ∧ t = (s.setCore { s.core with res := s.adc.ares }).emit (.aRead s.adc.ares) := by
  unfold readResult
  split <;> (simp_all; try exact eq_comm)

/-- `A.READ` faults exactly with `ADONE` clear. -/
theorem readResult_eq_fault {s : State} {f : Fault} :
    readResult s = .fault f ↔ s.adc.adone = false ∧ f = .adcNotDone s.core.cnt := by
  unfold readResult
  split <;> (simp_all; try exact eq_comm)

/-- `A.READ` is never refused. -/
theorem readResult_ne_refused {s : State} {q : Refusal} : readResult s ≠ .refused q := by
  unfold readResult
  split <;> simp

/-- `A.DONE` always gives a next state. -/
theorem pollDone_eq (s : State) :
    pollDone s = .next ((s.setCore { s.core with res := if s.adc.adone then 1 else 0 }).emit (.aDone s.adc.adone)) :=
  rfl

/-! ### The agents -/

/-- What a timer clock can do: nothing before `T.INIT`, a match, or one count. -/
theorem timerClock_eq_next {s t : State} (h : timerClock s = .next t) :
    (s.timer.running = false ∧ t = s) ∨
    (s.timer.running = true ∧ s.timer.tper ≠ 0 ∧ s.timer.tcnt + 1 = s.timer.tper ∧
      t = (s.setTimer { s.timer.raiseMatch with tcnt := 0 }).emit .timerMatch) ∨
    (s.timer.running = true ∧ s.timer.tper ≠ 0 ∧ s.timer.tcnt + 1 ≠ s.timer.tper ∧
      t = s.setTimer { s.timer with tcnt := s.timer.tcnt + 1 }) := by
  unfold timerClock at h
  split at h
  · split at h
    · cases h
    · split at h <;> cases h <;> simp_all
  · cases h; simp_all

/-- What the untimed match step can do: nothing before `T.INIT`, or a match. -/
theorem timerMatch_eq_next {s t : State} (h : timerMatch s = .next t) :
    (s.timer.running = false ∧ t = s) ∨
    (s.timer.running = true ∧ t = (s.setTimer s.timer.raiseMatch).emit .timerMatch) := by
  unfold timerMatch at h
  split at h <;> cases h <;> simp_all

/-- What the ADC's completion step can do: nothing without a conversion in flight, or complete it. -/
theorem adcComplete_eq_next {ain residual : Dial} {s t : State} (h : adcComplete ain residual s = .next t) :
    (s.adc.abusy = false ∧ t = s) ∨
    (s.adc.abusy = true ∧
      t = (s.setAdc (s.adc.completed (s.adc.converted ain residual))).emit
        (.adcComplete (s.adc.converted ain residual))) := by
  unfold adcComplete at h
  split at h <;> cases h <;> simp_all

/-- A step is the move of the agent whose turn it is. -/
theorem step_eq (s : State) : step s = moveStep s.nextMove s.afterMove := rfl

/-- What the core can do where it gives a next state: the register step of the reset sequence, or one decoded operation. -/
theorem coreStep_eq_next {s t : State} (h : coreStep s = .next t) :
    s.configFault = none ∧
    ((s.selector = none ∧ t = (bootRegisters s).advance) ∨
     (∃ sel i u, s.selector = some sel ∧ decode s.cfg sel = .ok i ∧ exec i s = .next u ∧
        t = if completes i s then u.advance else u)) := by
  unfold coreStep at h
  split at h
  · cases h
  · rename_i hc
    refine ⟨hc, ?_⟩
    split at h
    · rename_i hs
      cases h
      exact .inl ⟨hs, rfl⟩
    · rename_i sel hs
      split at h
      · rename_i i hd
        unfold issue at h
        obtain ⟨u, hu, ht⟩ := andThen_eq_next.1 h
        cases ht
        exact .inr ⟨sel, i, u, hs, hd, hu, rfl⟩
      · cases h

/-- Where the core's word decodes, the core issues the operation it decodes to. -/
theorem coreStep_of_decode {s : State} {sel : Selector} {i : Instr} (hc : s.configFault = none)
    (hs : s.selector = some sel) (hd : decode s.cfg sel = .ok i) : coreStep s = issue i s := by
  unfold coreStep
  rw [hc, hs]
  simp only [hd]

end Sys2Proof.Machine
end

