-- ==== Sys2Proof/Laws/Frames.lean ====
section
/-! SUPPORT. What the operations shared inside one family do, what putting a sample leaves alone, and the fields and the generators'
helpers as numbers. -/

namespace Sys2Proof.Machine

/-! ### Putting a sample -/

/-- Putting a sample changes the sample and nothing else. -/
theorem onlySample_putSample (s : State) (v : Sample) : onlySample s (s.putSample v) v.toNat := by
  refine ⟨by simp, by simp, ⟨by simp, by simp⟩, by simp, by simp, by simp, by simp, by simp, ?_⟩
  unfold keepsOtherSamples State.putSample
  cases s.cfg.outputMode <;> simp
  cases s.seq.chan <;> simp

/-- Putting a sample and writing core registers leaves the devices and the other samples alone. -/
theorem keepsDevices_setCore_putSample (s : State) (c : CoreRegs) (v : Sample) :
    keepsDevices s ((s.setCore c).putSample v) := by
  refine ⟨⟨by simp, by simp⟩, by simp, by simp, by simp, by simp, by simp, ?_⟩
  unfold keepsOtherSamples State.putSample
  cases h : s.cfg.outputMode <;> simp [h]
  cases s.seq.chan <;> simp

/-- Writing core registers alone leaves the devices and all samples alone. -/
theorem keepsDevices_setCore (s : State) (c : CoreRegs) : keepsDevices s (s.setCore c) := by
  refine ⟨⟨rfl, rfl⟩, rfl, rfl, rfl, rfl, rfl, ?_⟩
  unfold keepsOtherSamples
  cases s.cfg.outputMode <;> simp

/-! ### Quantizers -/

/-- A good quantization table has an entry below 32 for every sample. -/
theorem goodQuantTable_get {q : List (BitVec 8)} {n : Nat} (h : goodQuantTable n q = true) (v : Sample) :
    ∃ x, q[v.toNat]? = some x ∧ x.toNat < 32 := by
  obtain ⟨h1, h2, -, -⟩ := goodQuantTable_facts h
  have hl : v.toNat < q.length := by have := v.isLt; omega
  refine ⟨_, List.getElem?_eq_getElem hl, ?_⟩
  simpa [BitVec.lt_def] using h2 _ (List.getElem_mem hl)

/-- A quantizer gives a next state exactly where its table has an entry for the sample, and then puts that entry. -/
theorem quantizeBy_eq_next {space : TableSpace} {q : List (BitVec 8)} {s t : State} :
    quantizeBy space q s = .next t ↔ ∃ v, q[s.sample.toNat]? = some v ∧ t = s.putSample (v.setWidth 5) := by
  unfold quantizeBy
  rw [memRead_eq_next]
  simp only [Host.Outcome.next.injEq, eq_comm]

/-! ### Acquisition -/

/-- Each dial's channel has an input. -/
theorem dialChannel_of_dial {s : State} {ch : ChannelId} (h : ch = s.cfg.chW ∨ ch = s.cfg.chE ∨ ch = s.cfg.chF) :
    s.dialChannel ch = true := by
  rcases h with rfl | rfl | rfl <;> simp [State.dialChannel]

/-- Selecting and starting: its first HAL operation is the selection, any later one the start. -/
theorem selectAndStart_eq_next {ch : ChannelId} {s t : State} :
    selectAndStart ch s = .next t ↔
      (s.seq.part = 0 ∧ s.adc.abusy = false ∧ s.dialChannel ch = true ∧
        t = ((s.setAdc (s.adc.selected ch)).emit (.aSel ch)).setPart 1) ∨
      (s.seq.part ≠ 0 ∧ s.adc.abusy = false ∧ t = ((s.setAdc s.adc.started).emit .aStart).setPart 0) := by
  unfold selectAndStart
  split
  · rename_i h
    have h0 : s.seq.part = 0 := Fin.ext h
    simp [stage_eq_next, selectChannel_eq_next, h0, and_assoc]
  · rename_i h
    have h0 : s.seq.part ≠ 0 := fun e => h (by rw [e]; rfl)
    simp [stage_eq_next, startConversion_eq_next, h0, and_assoc]

/-- Reading, discarding and starting: its first HAL operation is the read, any later one the start. -/
theorem discardAndStart_eq_next {s t : State} :
    discardAndStart s = .next t ↔
      (s.seq.part = 0 ∧ s.adc.adone = true ∧
        t = ((s.setCore { s.core with res := s.adc.ares }).emit (.aRead s.adc.ares)).setPart 1) ∨
      (s.seq.part ≠ 0 ∧ s.adc.abusy = false ∧ t = ((s.setAdc s.adc.started).emit .aStart).setPart 0) := by
  unfold discardAndStart
  split
  · rename_i h
    have h0 : s.seq.part = 0 := Fin.ext h
    simp [stage_eq_next, readResult_eq_next, h0, and_assoc]
  · rename_i h
    have h0 : s.seq.part ≠ 0 := fun e => h (by rw [e]; rfl)
    simp [stage_eq_next, startConversion_eq_next, h0, and_assoc]

/-! ### Fields and helpers as numbers -/

theorem skipField_toNat (c : Counter) : (skipField c).toNat = c.toNat % 128 := by simp [skipField]

theorem acqWord_toNat (c : Counter) : (acqWord c).toNat = c.toNat % 256 := by simp [acqWord]

theorem skipField_eq_zero (c : Counter) : skipField c = 0 ↔ c.toNat % 128 = 0 := by
  rw [← skipField_toNat, ← BitVec.toNat_inj]; simp

theorem directionBit_eq (c : Counter) : directionBit c = decide (c.toNat / 32 % 2 = 1) := by
  unfold directionBit
  rw [BitVec.getLsbD, Nat.testBit_eq_decide_div_mod_eq]

theorem pulseThreshold_toNat (de : Dial) : (pulseThreshold de).toNat = 32 - de.toNat / 32 := by
  unfold pulseThreshold pwField; simp [BitVec.toNat_sub]; omega

theorem sawValue_toNat (c : Counter) : (sawValue c).toNat = sawNat c.toNat := by
  unfold sawValue sawSlice sawNat; simp; omega

theorem csawValue_toNat (c : Counter) : (csawValue c).toNat = csawNat c.toNat := by
  unfold csawValue csawNat clipSlice
  generalize hd : c.extractLsb' 0 6 = d
  have : d.toNat = c.toNat % 64 := by rw [← hd]; simp
  rw [← this]
  clear this hd
  revert d; decide

theorem meanValue_toNat (a b : Sample) : (meanValue a b).toNat = (a.toNat + b.toNat) / 2 := by
  revert a b; decide +kernel

/-- The bit of a port word is the value of its pin. -/
theorem portWordOf_getLsbD {value : α → Bool} {m : PortMap α} {b : Nat} (h : b < 8) :
    (pinOf m b).map value = some ((portWordOf value m).getLsbD b) := by
  unfold portWordOf
  have key : ∀ b7 b6 b5 b4 b3 b2 b1 b0 : Bool, ∀ k : Fin 8,
      [b7, b6, b5, b4, b3, b2, b1, b0][7 - k.val]? =
        some ((BitVec.ofBool b7 ++ BitVec.ofBool b6 ++ BitVec.ofBool b5 ++ BitVec.ofBool b4 ++ BitVec.ofBool b3 ++
          BitVec.ofBool b2 ++ BitVec.ofBool b1 ++ BitVec.ofBool b0).getLsbD k.val) := by decide +kernel
  rw [← key (value m.b7) (value m.b6) (value m.b5) (value m.b4) (value m.b3) (value m.b2) (value m.b1) (value m.b0) ⟨b, h⟩]
  unfold pinOf PortMap.pins
  rw [← List.getElem?_map]
  rfl

end Sys2Proof.Machine
end

