-- ==== Sys2Proof/Laws/PerInstr.lean ====
section
/-! SUPPORT. A statement per operation: its word has the format that the table's "format" column gives it (30_encoding.md R99, R100). -/

namespace Sys2Proof.Laws.EncodedFormat

/-- The word of `i` has the format of `i`, whatever the parameters. -/
def Statement (i : Instr) : Prop := ∀ cfg : Config, (encode cfg i).format = i.format

theorem sine : Statement .sine := fun _ => rfl
theorem tri : Statement .tri := fun _ => rfl
theorem pulse : Statement .pulse := fun _ => rfl
theorem saw : Statement .saw := fun _ => rfl
theorem ssaw : Statement .ssaw := fun _ => rfl
theorem csaw : Statement .csaw := fun _ => rfl
theorem cssaw : Statement .cssaw := fun _ => rfl
theorem noise : Statement .noise := fun _ => rfl
theorem qz32 : Statement .qz32 := fun _ => rfl
theorem qz16 : Statement .qz16 := fun _ => rfl
theorem qz8 : Statement .qz8 := fun _ => rfl
theorem qz4 : Statement .qz4 := fun _ => rfl
theorem reload (pidx : BitVec 9) : Statement (.reload pidx) := fun _ => rfl
theorem acqWsel : Statement .acqWsel := fun _ => rfl
theorem acqWdisc : Statement .acqWdisc := fun _ => rfl
theorem acqWlatch : Statement .acqWlatch := fun _ => rfl
theorem acqEsel : Statement .acqEsel := fun _ => rfl
theorem acqEdisc : Statement .acqEdisc := fun _ => rfl
theorem acqElatchFsel : Statement .acqElatchFsel := fun _ => rfl
theorem acqFdisc : Statement .acqFdisc := fun _ => rfl
theorem acqFlatch : Statement .acqFlatch := fun _ => rfl
theorem acqNop (band : BitVec 3) (off : BitVec 5) : Statement (.acqNop band off) := fun _ => rfl
theorem advHold : Statement .advHold := fun _ => rfl
theorem advInc (skip : BitVec 7) : Statement (.advInc skip) := fun _ => rfl
theorem encSingle : Statement .encSingle := fun _ => rfl
theorem encQuad : Statement .encQuad := fun _ => rfl
theorem tInit : Statement .tInit := fun _ => rfl
theorem tSetper (v : Period) : Statement (.tSetper v) := fun _ => rfl
theorem tWaitclr : Statement .tWaitclr := fun _ => rfl
theorem aInit : Statement .aInit := fun _ => rfl
theorem aSel (ch : ChannelId) : Statement (.aSel ch) := fun _ => rfl
theorem aStart : Statement .aStart := fun _ => rfl
theorem aDone : Statement .aDone := fun _ => rfl
theorem aRead : Statement .aRead := fun _ => rfl
theorem aReadblk : Statement .aReadblk := fun _ => rfl
theorem dInit : Statement .dInit := fun _ => rfl
theorem dWrite (p : PortId) (v : PortWord) : Statement (.dWrite p v) := fun _ => rfl

end Sys2Proof.Laws.EncodedFormat
end

