-- ==== Sys2Proof/Tests/Slice0.lean ====
section
/-! SUPPORT. The model's own tests. Expected values come from spec/95_test_vectors.md (the section is named at each group) or from
the examples of the rules, under the default parameters. -/

namespace Sys2Proof.Tests
open Sys2Proof.Machine

/-- A field of the next state, where there is one. -/
def after (r : Result) (f : State → α) : Option α :=
  match r with
  | .next t => some (f t)
  | _ => none

def faultOf (r : Result) : Option Fault :=
  match r with
  | .fault f => some f
  | _ => none

def refusalOf (r : Result) : Option Refusal :=
  match r with
  | .refused q => some q
  | _ => none

/-- `n` runs of one operation's meaning in a row: for a composite operation, its HAL operations one after another (D28). -/
def execTimes (i : Instr) : Nat → State → Result
  | 0, s => .next s
  | n + 1, s => andThen (exec i s) (execTimes i n)

/-- An operation with all its HAL operations. -/
def whole (i : Instr) (s : State) : Result := execTimes i (halSteps i) s

/-- A state with the given counters. -/
def atCount (cnt det : Counter) : State :=
  State.reset.setCore { State.reset.core with cnt := cnt, det := det }

/-- The sequencer at a step of the frame, the core to move `n` times. -/
def atStep (f : FStep) (n : Nat) (s : State) : State :=
  (s.setSeq { s.seq with fstep := f }).setEnv { script := coreMoves n, draws := 0 }

/-! ### WellFormed: an ill-formed term for each check -/

theorem test_wf_refuses_nop_at_phase : Instr.wf (.acqNop 3 0) = false := by decide
theorem test_wf_refuses_inc_at_hold : Instr.wf (.advInc 0) = false := by decide
theorem test_wf_refuses_port_three : Instr.wf (.dWrite 3 0x1F) = false := by decide
theorem test_wf_admits : Instr.wf (.acqNop 2 1) = true ∧ Instr.wf (.advInc 5) = true ∧ Instr.wf (.dWrite 2 0) = true := by
  decide

/-! ### Decoding: words written out from 30_encoding.md R99 and 95_test_vectors.md 3.1 -/

theorem test_decode_generators :
    decode Config.default (.wsel 0b0000000000) = .ok .sine ∧ decode Config.default (.wsel 0b0001111111) = .ok .sine ∧
    decode Config.default (.wsel 0b0010000000) = .ok .tri ∧ decode Config.default (.wsel 0b0101111111) = .ok .pulse ∧
    decode Config.default (.wsel 0b0110000000) = .ok .saw ∧ decode Config.default (.wsel 0b1000000000) = .ok .ssaw ∧
    decode Config.default (.wsel 0b1010100111) = .ok .csaw ∧ decode Config.default (.wsel 0b1100000000) = .ok .cssaw ∧
    decode Config.default (.wsel 0b1111111111) = .ok .noise := by decide

theorem test_decode_quantizers :
    decode Config.default (.esel 0b0011111111) = .ok .qz32 ∧ decode Config.default (.esel 0b0100000000) = .ok .qz16 ∧
    decode Config.default (.esel 0b1011111111) = .ok .qz8 ∧ decode Config.default (.esel 0b1100000000) = .ok .qz4 := by
  decide

theorem test_decode_reload :
    decode Config.default (.fsel 0) = .ok (.reload 0) ∧ decode Config.default (.fsel 1) = .ok (.reload 0) ∧
    decode Config.default (.fsel 0x2A7) = .ok (.reload 339) ∧ decode Config.default (.fsel 1022) = .ok (.reload 511) ∧
    decode Config.default (.fsel 1023) = .ok (.reload 511) := by decide

theorem test_decode_acquisition :
    decode Config.default (.aph 0x00) = .ok .acqWsel ∧ decode Config.default (.aph 0x20) = .ok .acqWdisc ∧
    decode Config.default (.aph 0x40) = .ok .acqWlatch ∧ decode Config.default (.aph 0x60) = .ok .acqEsel ∧
    decode Config.default (.aph 0x80) = .ok .acqEdisc ∧ decode Config.default (.aph 0xA0) = .ok .acqElatchFsel ∧
    decode Config.default (.aph 0xC0) = .ok .acqFdisc ∧ decode Config.default (.aph 0xE0) = .ok .acqFlatch ∧
    decode Config.default (.aph 0x41) = .ok (.acqNop 2 1) ∧ decode Config.default (.aph 0xFF) = .ok (.acqNop 7 31) := by
  decide

theorem test_decode_advance :
    decode Config.default (.adv 0) = .ok .advHold ∧ decode Config.default (.adv 0x20) = .ok (.advInc 0x20) ∧
    decode Config.default (.adv 0x7F) = .ok (.advInc 0x7F) := by decide

theorem test_decode_encoders :
    decode Config.default (.cfg .single) = .ok .encSingle ∧ decode Config.default (.cfg .quad) = .ok .encQuad := by decide

/-- The numbers of R100 in bits 3:0, the operand above them (log 15). -/
theorem test_decode_hal :
    decode Config.default (.hal 0x00000) = .ok .tInit ∧ decode Config.default (.hal 0x04B01) = .ok (.tSetper 0x04B0) ∧
    decode Config.default (.hal 0x00002) = .ok .tWaitclr ∧ decode Config.default (.hal 0x00003) = .ok .aInit ∧
    decode Config.default (.hal 0x00014) = .ok (.aSel 1) ∧ decode Config.default (.hal 0x00005) = .ok .aStart ∧
    decode Config.default (.hal 0x00006) = .ok .aDone ∧ decode Config.default (.hal 0x00007) = .ok .aRead ∧
    decode Config.default (.hal 0x00008) = .ok .aReadblk ∧ decode Config.default (.hal 0x00009) = .ok .dInit ∧
    decode Config.default (.hal 0x0218A) = .ok (.dWrite 2 0x18) := by decide

theorem test_decode_hal_rejects :
    decode Config.default (.hal 0x0000B) = .error (.unknownHalCode 0xB) ∧
    decode Config.default (.hal 0x00010) = .error (.badHalOperand 0) ∧
    decode Config.default (.hal 0x00104) = .error (.badHalOperand 4) ∧
    decode Config.default (.hal 0x0300A) = .error (.badHalOperand 10) := by decide

theorem test_table_words :
    decodeTableWord 16 0x380 = some .noise ∧ decodeTableWord 8 0xA0 = some .acqElatchFsel ∧
    decodeTableWord 7 0x05 = some (.advInc 5) ∧ decodeTableWord 16 0x400 = none ∧ decodeTableWord 0 0 = none := by decide

/-- 95 3.1: pulse widths and thresholds. -/
theorem test_pulse_thresholds :
    pulseThreshold 0x01F = 32 ∧ pulseThreshold 0x020 = 31 ∧ pulseThreshold 0x0FF = 25 ∧ pulseThreshold 0x2FF = 9 ∧
    pulseThreshold 0x3DF = 2 ∧ pulseThreshold 0x3E0 = 1 := by decide

/-! ### Generators: 95 3.2 to 3.7 -/

def sampleAfter (i : Instr) (s : State) : Option Sample := after (exec i s) State.sample

theorem test_sine : sampleAfter .sine (atCount 70 0) = some 24 ∧ sampleAfter .sine (atCount 0x1234 0) = some 1 ∧
    sampleAfter .sine (atCount 0xFFFF 0) = some 14 := by decide

def atTri (cnt : Counter) (t : Sample) : State := State.reset.setCore { State.reset.core with cnt := cnt, tri := t }

/-- Rise, hold at the top, fall, bounce at the bottom. -/
theorem test_tri : sampleAfter .tri (atTri 0x0005 30) = some 31 ∧ sampleAfter .tri (atTri 0x001F 31) = some 31 ∧
    sampleAfter .tri (atTri 0x0020 31) = some 30 ∧ sampleAfter .tri (atTri 0x003F 1) = some 0 ∧
    sampleAfter .tri (atTri 0x003F 0) = some 1 := by decide

theorem test_tri_writes_tri : after (exec .tri (atTri 0x0028 17)) (fun t => t.core.tri) = some 16 := by decide

def atEffect (cnt : Counter) (de : Dial) : State := State.reset.setCore { State.reset.core with cnt := cnt, de := de }

theorem test_pulse : sampleAfter .pulse (atEffect 72 0x2FF) = some 31 ∧ sampleAfter .pulse (atEffect 73 0x2FF) = some 0 ∧
    sampleAfter .pulse (atEffect 31 0) = some 31 ∧ sampleAfter .pulse (atEffect 32 0) = some 0 := by decide

theorem test_saw : sampleAfter .saw (atCount 45 0) = some 22 ∧ sampleAfter .saw (atCount 0x8021 0) = some 16 := by decide

theorem test_csaw : sampleAfter .csaw (atCount 16 0) = some 0 ∧ sampleAfter .csaw (atCount 17 0) = some 1 ∧
    sampleAfter .csaw (atCount 47 0) = some 31 ∧ sampleAfter .csaw (atCount 100 0) = some 20 := by decide

theorem test_ssaw : sampleAfter .ssaw (atCount 200 198) = some 3 ∧ sampleAfter .ssaw (atCount 128 127) = some 15 := by decide

theorem test_cssaw : sampleAfter .cssaw (atCount 2040 2024) = some 27 := by decide

theorem test_xorshift : xorShift 13 17 5 1 = 0x00042021 ∧ xorShift 13 17 5 0x00042021 = 0x04080601 ∧
    xorShift 13 17 5 0xDEADBEEF = 0x477D20B7 ∧ xorShift 13 17 5 0x80000000 = 0x80084000 := by decide

theorem test_noise : sampleAfter .noise State.reset = some 1 ∧
    after (exec .noise State.reset) (fun t => t.core.rng) = some 0x00042021 := by decide

/-! ### Quantizers: 95 3.8 -/

def withSample (v : Sample) : State := State.reset.putSample v

theorem test_qz32 : sampleAfter .qz32 (withSample 13) = some 13 := by decide
theorem test_qz16 : sampleAfter .qz16 (withSample 13) = some 12 ∧ sampleAfter .qz16 (withSample 31) = some 30 := by decide
theorem test_qz8 : sampleAfter .qz8 (withSample 15) = some 12 ∧ sampleAfter .qz8 (withSample 31) = some 28 := by decide
theorem test_qz4 : sampleAfter .qz4 (withSample 23) = some 16 ∧ sampleAfter .qz4 (withSample 31) = some 24 := by decide

/-! ### Scheduler: 95 3.11, R124 -/

theorem test_reload : after (exec (.reload 511) State.reset) (fun t => (t.timer.tnxt, t.timer.tper, t.events)) =
    some (1000, 1000, [.tSetper 1000]) ∧
    after (exec (.reload 339) State.reset) (fun t => t.timer.tnxt) = some 1172 := by decide +kernel

theorem test_adv_hold : after (exec .advHold (atCount 0x0080 0x007F)) (fun t => (t.core.cnt, t.core.det)) =
    some (0x0081, 0x007F) := by decide

theorem test_adv_inc_wraps : after (exec (.advInc 0x7F) (atCount 0xFFFF 0xFDFF)) (fun t => (t.core.cnt, t.core.det)) =
    some (0x0000, 0xFE00) := by decide

/-! ### Acquisition: 95 3.10 -/

/-- An ADC at rest with a result. -/
def atAdc (cnt : Counter) (ach : ChannelId) (v : Dial) : State :=
  (atCount cnt 0).setAdc { ach := ach, abusy := false, adone := true, ares := v, asettle := false }

def adcAfter (i : Instr) (s : State) : Option Adc := after (whole i s) State.adc

theorem test_acq_wsel : adcAfter .acqWsel (atAdc 0x0100 2 0x3FF) =
    some { ach := 0, abusy := true, adone := false, ares := 0x3FF, asettle := true } := by decide
theorem test_acq_wdisc : after (whole .acqWdisc (atAdc 0x0120 0 0x155)) (fun t => (t.core.dw, t.events)) =
    some (0, [.aRead 0x155, .aStart]) := by decide
theorem test_acq_wlatch : after (exec .acqWlatch (atAdc 0x0140 0 0x180)) (fun t => (t.core.dw, t.adc.abusy)) =
    some (0x180, false) := by decide
theorem test_acq_esel : after (whole .acqEsel (atAdc 0x0160 0 0x180)) (fun t => (t.adc.ach, t.events)) =
    some (1, [.aSel 1, .aStart]) := by decide
theorem test_acq_edisc : adcAfter .acqEdisc (atAdc 0x0180 1 0x155) =
    some { ach := 1, abusy := true, adone := false, ares := 0x155, asettle := false } := by decide
theorem test_acq_elatch_fsel : after (whole .acqElatchFsel (atAdc 0x01A0 1 0x2FF)) (fun t => (t.core.de, t.adc.ach, t.events)) =
    some (0x2FF, 2, [.aRead 0x2FF, .aSel 2, .aStart]) := by decide
theorem test_acq_fdisc : after (whole .acqFdisc (atAdc 0x01C0 2 0x155)) (fun t => (t.core.df, t.adc.abusy)) =
    some (0, true) := by decide
theorem test_acq_flatch : after (exec .acqFlatch (atAdc 0x01E0 2 0x3FF)) (fun t => (t.core.df, t.adc.ach)) =
    some (0x3FF, 2) := by decide
theorem test_acq_nop : exec (.acqNop 7 1) (atAdc 0x01E1 2 0x3FF) = .next (atAdc 0x01E1 2 0x3FF) := rfl

def converting (cnt : Counter) (settle : Bool) (ach : ChannelId) : State :=
  (atCount cnt 0).setAdc { ach := ach, abusy := true, adone := false, ares := 0, asettle := settle }

/-- The fault vector of 3.10. -/
theorem test_adc_not_done : faultOf (exec .acqWdisc (converting 0x0120 true 0)) = some (.adcNotDone 0x0120) := by decide
theorem test_adc_busy : faultOf (exec (.aSel 1) (converting 5 true 0)) = some (.adcBusy 5) ∧
    faultOf (exec .aStart (converting 5 true 0)) = some (.adcBusy 5) := by decide

/-! ### Encoders: 95 3.9 -/

theorem test_enc_single : after (exec .encSingle (withSample 24)) (fun t => (t.ports.p0, t.events)) =
    some (0x18, [.dWrite 0 0x18]) := by decide

def quadConfig : Config := Config.defaultQuad

def quadState (x : Samples) : State := (State.resetOf quadConfig).setSamples x

theorem test_enc_quad :
    after (whole .encQuad (quadState { mono := 0, sine := 24, tri := 13, saw := 22, pulse := 31 })) (fun t => t.events) =
      some [.dWrite 0 0x10, .dWrite 1 0x36, .dWrite 2 0x03] := by decide
theorem test_enc_quad_bits :
    after (whole .encQuad (quadState { mono := 0, sine := 19, tri := 3, saw := 1, pulse := 31 })) (fun t =>
      (t.ports.p0, t.ports.p1, t.ports.p2)) = some (0x70, 0x21, 0x02) := by decide

/-- Between the writes the ports hold a mixture (45 R222). -/
theorem test_enc_quad_mixture :
    after (exec .encQuad (quadState { mono := 0, sine := 19, tri := 3, saw := 1, pulse := 31 })) (fun t =>
      (t.ports.p0, t.ports.p1, t.ports.p2, t.seq.part)) = some (0x70, 0, 0, 1) := by decide

/-! ### HAL operations: 95 3.13 -/

/-- The core at `WAIT` after boot, the flag set. -/
def waiting : State := (atStep .wait 1 State.reset).setTimer { State.reset.timer with matchFlag := true, running := true }

theorem test_t_init : after (exec .tInit State.reset) (fun t => t.timer) =
    some { tcnt := 0, tper := 1000, tnxt := 1000, matchFlag := false, running := true } := by decide
theorem test_t_setper : after (exec (.tSetper 1200) State.reset) (fun t => (t.timer.tnxt, t.timer.tper)) =
    some (1200, 1000) := by decide
theorem test_t_setper_zero : faultOf (exec (.tSetper 0) State.reset) = some (.zeroPeriod 0) := by decide

def timerAt (tcnt tper tnxt : Period) (m : Bool) : State :=
  State.reset.setTimer { tcnt := tcnt, tper := tper, tnxt := tnxt, matchFlag := m, running := true }

theorem test_t_waitclr : after (exec .tWaitclr (timerAt 0 5 5 true)) (fun t => (t.timer.matchFlag, t.events)) =
    some (false, [.tWaitclr]) := by decide
theorem test_t_waitclr_holds : exec .tWaitclr (timerAt 0 5 5 false) = .next (timerAt 0 5 5 false) := rfl
theorem test_a_init : after (exec .aInit State.reset) (fun t => (t.adc.abusy, t.adc.adone, t.adc.asettle)) =
    some (false, false, true) := by decide
theorem test_a_sel : after (exec (.aSel 1) (atAdc 0 1 7)) (fun t => (t.adc.ach, t.adc.asettle, t.adc.adone)) =
    some (1, true, true) := by decide
theorem test_a_sel_refuses : refusalOf (exec (.aSel 5) (atAdc 0 1 7)) = some (.channelWithoutInput 5) := by decide
theorem test_a_start : adcAfter .aStart (atAdc 0 1 7) =
    some { ach := 1, abusy := true, adone := false, ares := 7, asettle := false } := by decide
theorem test_a_done : after (exec .aDone (converting 0 true 0)) (fun t => (t.core.res, t.events)) =
    some (0, [.aDone false]) := by decide
theorem test_a_read : after (exec .aRead (atAdc 0 1 0x2A7)) (fun t => (t.core.res, t.adc.adone, t.events)) =
    some (0x2A7, true, [.aRead 0x2A7]) := by decide
theorem test_a_readblk_starts : after (exec .aReadblk (atAdc 0 1 7)) (fun t => (t.core.rdblk, t.adc.abusy, t.events)) =
    some (true, true, [.aStart]) := by decide
theorem test_a_readblk_returns :
    after (exec .aReadblk ((atAdc 0 1 0x180).setCore { (atAdc 0 1 0x180).core with rdblk := true }))
      (fun t => (t.core.res, t.core.rdblk, t.events)) =
      some (0x180, false, [.aDone true, .aRead 0x180, .aReadblk 0x180]) := by decide
/-- U19: a second configuration, after boot, is refused. -/
theorem test_init_after_boot : refusalOf (exec .tInit waiting) = some (.configuredAfterBoot .timer) ∧
    refusalOf (exec .aInit waiting) = some (.configuredAfterBoot .adc) ∧
    refusalOf (exec .dInit waiting) = some (.configuredAfterBoot .ports) := by decide
theorem test_d_init : after (exec .dInit State.reset) (fun t => (t.ports.outputs, t.events)) =
    some (true, [.dInit]) := by decide
theorem test_d_write : after (exec (.dWrite 0 0x1F) State.reset) (fun t => t.ports.p0) = some 0x1F := by decide
theorem test_d_write_refuses : refusalOf (exec (.dWrite 1 0x1F) State.reset) = some (.portNotInUse 1) := by decide

/-! ### Agents: 95 3.12, 3.13 -/

theorem test_timer_match : after (timerClock (timerAt 999 1000 1200 false)) (fun t => t.timer) =
    some { tcnt := 0, tper := 1200, tnxt := 1200, matchFlag := true, running := true } := by decide
theorem test_timer_counts : after (timerClock (timerAt 10 1000 1200 false)) (fun t => (t.timer, t.events)) =
    some ({ tcnt := 11, tper := 1000, tnxt := 1200, matchFlag := false, running := true }, []) := by decide
theorem test_adc_settled : after (adcComplete 0x3FF 0x155 (converting 0 false 2)) (fun t => t.adc) =
    some { ach := 2, abusy := false, adone := true, ares := 0x3FF, asettle := false } := by decide
theorem test_adc_contaminated : after (adcComplete 0x3FF 0x155 (converting 0 true 2)) (fun t => t.adc.ares) =
    some 0x155 := by decide

/-! ### Steps -/

/-- A word of the table placed after reset is what the very next step runs. -/
theorem test_fetch_word : after (step (State.reset.withFetchWord 16 0x380)) (fun t => (t.core.rng, t.seq.fstep)) =
    some (0x00042021, .effect) := by decide
theorem test_fetch_phase : after (step (State.reset.withFetchWord 8 0x40)) (fun t => (t.events, t.seq.fstep)) =
    some ([.aRead 0], .advance) := by decide

/-- `GOOD_CONFIG` refuses a zero seed, a table that is not idempotent and two dials on one channel (95 3.13). -/
theorem test_bad_config : { Config.default with seed := 0 }.firstBad = some .seed ∧
    { Config.default with q8 := Config.default.q8.set 5 7 }.firstBad = some .q8 ∧
    { Config.default with chE := 0 }.firstBad = some .channels ∧ quadConfig.firstBad = none ∧
    { Config.defaultQuad with nPorts := 1 }.firstBad = some .nPorts ∧
    { Config.default with singlePinmap := { defaultSinglePinmap with port := 1 } }.firstBad = some .singlePinmap := by decide +kernel

theorem test_boot_refuses_bad_config :
    faultOf (step (atStep .boot 1 (State.resetOf { Config.default with seed := 0 }))) = some (.badConfig .seed) := by
  decide +kernel

/-! ### Witnesses: a state and operands that meet the hypotheses of each statement, each clause at a boundary of its range -/

theorem witness_step_runs_decoded : waiting.nextMove = .core ∧ waiting.configFault = none ∧
    waiting.selector = some (.hal 0x00002) ∧ decode waiting.cfg (.hal 0x00002) = .ok .tWaitclr := by decide

theorem witness_decode_inverts_encode : Config.default.variantCode.bijective = true ∧
    (Instr.acqNop 7 31).wf = true ∧ (Instr.advInc 127).wf = true ∧ (Instr.dWrite 2 0xFF).wf = true := by decide

theorem witness_encode_inverts_decode : Config.default.variantCode.bijective = true ∧
    (∀ ch, Selector.esel 0x3FF ≠ .quad ch) ∧ decode Config.default (.esel 0x3FF) = .ok .qz4 := by
  refine ⟨by decide, by intro ch; cases ch <;> decide, by decide⟩

/-- Words that differ in their don't-care bits alone, at both ends of a field's range. -/
theorem witness_no_selector_is_illegal :
    (0x37F : Dial).toNat / 128 = (0x300 : Dial).toNat / 128 ∧ (0x0FF : Dial).toNat / 256 = (0 : Dial).toNat / 256 ∧
    (0x3FF : Dial).toNat / 2 = (0x3FE : Dial).toNat / 2 ∧ (0x3FF : Dial).toNat / 32 = (0x3E0 : Dial).toNat / 32 := by decide

theorem witness_phases : (0xFF00 : Counter).toNat % 256 = 0x00 ∧ (0x0020 : Counter).toNat % 256 = 0x20 ∧
    (0x0140 : Counter).toNat % 256 = 0x40 ∧ (0x0060 : Counter).toNat % 256 = 0x60 ∧
    (0x0080 : Counter).toNat % 256 = 0x80 ∧ (0x00A0 : Counter).toNat % 256 = 0xA0 ∧
    (0x00C0 : Counter).toNat % 256 = 0xC0 ∧ (0xFFE0 : Counter).toNat % 256 = 0xE0 ∧
    (0xFFFF : Counter).toNat % 32 ≠ 0 := by decide

theorem witness_sine_table : State.reset.cfg.st.length ≠ 0 := by decide

theorem witness_xorshift_amounts : (1 ≤ 1 ∧ 1 ≤ 31) ∧ (1 ≤ 31 ∧ 31 ≤ 31) ∧ (1 ≤ 13 ∧ 13 ≤ 31) := by decide

/-- Good parameters, and the dial values at the ends of the four levels. -/
theorem witness_quantizers : GoodConfig State.reset ∧
    decode State.reset.cfg (.esel 255) = .ok .qz32 ∧ decode State.reset.cfg (.esel 256) = .ok .qz16 ∧
    decode State.reset.cfg (.esel 511) = .ok .qz16 ∧ decode State.reset.cfg (.esel 512) = .ok .qz8 ∧
    decode State.reset.cfg (.esel 767) = .ok .qz8 ∧ decode State.reset.cfg (.esel 768) = .ok .qz4 :=
  ⟨Config.default_good, by decide⟩

theorem witness_quantizing_twice : GoodConfig (withSample 31) ∧
    decode (withSample 31).cfg (.esel 1023) = .ok .qz4 ∧ (withSample 7).cfg = (withSample 31).cfg ∧
    (withSample 7).sample ≤ (withSample 31).sample ∧ exec .qz4 (withSample 7) = .next (withSample 0) ∧
    exec .qz4 (withSample 31) = .next (withSample 24) :=
  ⟨Config.default_good, by decide, rfl, by decide, rfl, rfl⟩

theorem witness_counters : (1 : Counter).toNat % 128 ≠ 0 ∧ (0xFFFF : Counter).toNat % 128 ≠ 0 ∧
    (0x0080 : Counter).toNat % 128 = 0 ∧ 65535 < 65536 ∧ (atCount 0 0).core.cnt = 0 ∧ (atCount 0 0).core.det = 0 := by
  decide

/-- An ADC at rest with a finished conversion. -/
theorem witness_acquisition : (atAdc 0x0140 0 0x180).seq.part = 0 ∧ (atAdc 0x0140 0 0x180).adc.abusy = false ∧ (atAdc 0x0140 0 0x180).adc.adone = true ∧
    (1 : Counter).toNat % 32 ≠ 0 := by decide

theorem witness_acquisition_faults : (converting 0x0120 true 0).adc.adone = false ∧
    (converting 0x0120 true 0).adc.abusy = true ∧ (converting 0x0120 true 0).seq.part = 0 ∧
    ((converting 0x0120 true 0).setPart 2).adc.abusy = true ∧ ((converting 0x0120 true 0).setPart 2).seq.part ≠ 0 := by
  decide

/-- A one-channel build whose map names a port that is not in use. -/
def portMissing : State := State.resetOf { Config.default with singlePinmap := { defaultSinglePinmap with port := 1 } }

theorem witness_enc_single : State.reset.cfg.singlePinmap.port.toNat < State.reset.cfg.nPorts ∧
    State.reset.cfg.singlePinmap.port ≠ 3 ∧ State.reset.cfg.singlePinmap = defaultSinglePinmap ∧
    ¬(portMissing.cfg.singlePinmap.port.toNat < portMissing.cfg.nPorts ∧ portMissing.cfg.singlePinmap.port ≠ 3) := by
  decide

theorem witness_enc_quad : 3 ≤ (quadState samplesReset).cfg.nPorts ∧ (quadState samplesReset).seq.part = 0 := by decide

theorem witness_configuration : State.reset.seq.fstep = .boot ∧ waiting.seq.fstep ≠ .boot := by decide

theorem witness_set_period : (1 : Period) ≠ 0 ∧ (0xFFFF : Period) ≠ 0 ∧ (timerAt 0 5 5 false).timer.running = true := by
  decide

theorem witness_wait : (timerAt 0 5 5 true).timer.matchFlag = true ∧ (timerAt 0 5 5 false).timer.matchFlag = false := by
  decide

theorem witness_holds_at_wait : (atStep .wait 1 State.reset).nextMove = .core ∧
    (atStep .wait 1 State.reset).seq.fstep = .wait ∧ (atStep .wait 1 State.reset).timer.matchFlag = false := by decide

/-- A schedule that is fair to the timer and the core: a reset, the core as far as the first blocking read, and then the core polling and
the timer matching in turn. -/
def fairMoves (n : Nat) : Move :=
  if n = 0 then .reset else if n < 7 then .core else if n % 2 = 0 then .core else .timerMatch

/-- Its run from a core at `WAIT`. -/
def fairRun : Nat → State
  | 0 => waiting
  | n + 1 => (after (moveStep (fairMoves n) (fairRun n)) id).getD (fairRun n)

def pollsForever (s : State) : Prop :=
  s.seq.fstep = .boot ∧ s.seq.boot = .discW ∧ s.core.rdblk = true ∧ s.adc.adone = false ∧ s.timer.running = true

theorem pollsForever_core {s : State} (h : pollsForever s) : moveStep .core s = .next s := by
  obtain ⟨hf, hb, hr, ha, -⟩ := h
  have hc : s.configFault = none := by simp [State.configFault, hf, hb]
  have hs : s.selector = some (encode s.cfg .aReadblk) := by simp [State.selector, hf, hb, bootOperation]
  show coreStep s = _
  rw [coreStep_of_decode hc hs rfl]
  simp [issue, exec, execAReadblk, completes, hr, ha]

theorem pollsForever_timer {s : State} (h : pollsForever s) :
    ∃ t, moveStep .timerMatch s = .next t ∧ pollsForever t :=
  ⟨_, if_pos h.2.2.2.2, h⟩

theorem pollsForever_fairRun (n : Nat) :
    pollsForever (fairRun (7 + n)) ∧ moveStep (fairMoves (7 + n)) (fairRun (7 + n)) = .next (fairRun (7 + n + 1)) := by
  have next : ∀ k, pollsForever (fairRun (7 + k)) → pollsForever (fairRun (7 + k + 1)) ∧
      moveStep (fairMoves (7 + k)) (fairRun (7 + k)) = .next (fairRun (7 + k + 1)) := by
    intro k h
    have hm : fairMoves (7 + k) = .core ∨ fairMoves (7 + k) = .timerMatch := by
      unfold fairMoves
      rw [if_neg (by omega), if_neg (by omega)]
      split <;> simp
    have hrun : fairRun (7 + k + 1) =
        (after (moveStep (fairMoves (7 + k)) (fairRun (7 + k))) id).getD (fairRun (7 + k)) := rfl
    rcases hm with hm | hm <;> rw [hm] at hrun ⊢
    · rw [pollsForever_core h] at hrun ⊢
      exact ⟨hrun ▸ h, by rw [hrun]; rfl⟩
    · obtain ⟨t, ht, hp⟩ := pollsForever_timer h
      rw [ht] at hrun ⊢
      exact ⟨hrun ▸ hp, by rw [hrun]; rfl⟩
  have all : ∀ k, pollsForever (fairRun (7 + k)) := by
    intro k
    induction k with
    | zero => unfold pollsForever; decide +kernel
    | succ k ih => exact (next k ih).1
  exact ⟨all n, (next n (all n)).2⟩

theorem witness_fair_run : isRun fairMoves fairRun ∧ TimerFair fairMoves fairRun ∧ CoreFair fairMoves ∧
    (fairRun 0).seq.fstep = .wait := by
  refine ⟨fun n => ?_, fun n => ⟨7 + 2 * n, by omega, (pollsForever_fairRun _).1.2.2.2.2, .inl ?_⟩,
    fun n => ⟨8 + 2 * n, by omega, ?_⟩, rfl⟩
  · by_cases h : n < 7
    · have low : ∀ k : Fin 7, (after (moveStep (fairMoves k) (fairRun k)) id).isSome = true := by decide +kernel
      have hs := low ⟨n, h⟩
      show moveStep (fairMoves n) (fairRun n) = .next ((after (moveStep (fairMoves n) (fairRun n)) id).getD (fairRun n))
      revert hs
      dsimp only
      cases moveStep (fairMoves n) (fairRun n) <;> simp [after]
    · obtain ⟨k, rfl⟩ : ∃ k, n = 7 + k := ⟨n - 7, by omega⟩
      exact (pollsForever_fairRun k).2
  · unfold fairMoves
    rw [if_neg (by omega), if_neg (by omega), if_neg (by omega)]
  · unfold fairMoves
    rw [if_neg (by omega), if_neg (by omega), if_pos (by omega)]

/-- The timer stopped, a period of 0, the last clock of a period, and the counter's wrap. -/
theorem witness_timer_clock : State.reset.timer.running = false ∧ (timerAt 0 0 5 false).timer.tper = 0 ∧
    (timerAt 0xFFFE 0xFFFF 5 false).timer.tper ≠ 0 ∧
    ((timerAt 0xFFFE 0xFFFF 5 false).timer.tcnt.toNat + 1) % 65536 =
      (timerAt 0xFFFE 0xFFFF 5 false).timer.tper.toNat ∧
    ((timerAt 0xFFFF 0xFFFF 5 false).timer.tcnt.toNat + 1) % 65536 ≠
      (timerAt 0xFFFF 0xFFFF 5 false).timer.tper.toNat := by decide

theorem witness_interval : (timerAt 0 1 5 false).timer.running = true ∧ (timerAt 0 1 5 false).timer.tcnt = 0 ∧
    (timerAt 0 1 5 false).timer.tper ≠ 0 ∧ 0 < (timerAt 0 1 5 false).timer.tper.toNat := by decide

theorem witness_matches_merge : (timerAt 0 5 5 false).timer.running = true := rfl

theorem witness_select : (atAdc 0 1 7).adc.abusy = false ∧ (converting 5 true 0).adc.abusy = true ∧
    (2 : ChannelId) = (atAdc 0 1 7).cfg.chF ∧ (15 : ChannelId) ≠ (atAdc 0 1 7).cfg.chW ∧
    (15 : ChannelId) ≠ (atAdc 0 1 7).cfg.chE ∧ (15 : ChannelId) ≠ (atAdc 0 1 7).cfg.chF := by decide

/-- A conversion started by `A.READBLK`, in flight and done. -/
def polling (done : Bool) : State :=
  (State.reset.setCore { State.reset.core with rdblk := true }).setAdc
    { ach := 0, abusy := !done, adone := done, ares := 0x3FF, asettle := false }

theorem witness_blocking_read : (polling false).core.rdblk = true ∧ (polling false).adc.adone = false ∧
    (polling true).adc.adone = true ∧ (atAdc 0 1 7).core.rdblk = false ∧ (atAdc 0 1 7).adc.abusy = false ∧
    (converting 5 true 0).core.rdblk = false ∧ (converting 5 true 0).adc.abusy = true := by decide

theorem witness_completion : (converting 0 true 2).adc.abusy = true ∧ (converting 0 true 2).adc.asettle = true ∧
    (converting 0 false 2).adc.asettle = false ∧ (atAdc 0 1 7).adc.abusy = false := by decide

/-- The last port in use and the first that is not, in a build of one port and in one of three. -/
theorem witness_port_write : (0 : PortId).toNat < State.reset.cfg.nPorts ∧ State.reset.cfg.nPorts ≤ (1 : PortId).toNat ∧
    (2 : PortId).toNat < (quadState samplesReset).cfg.nPorts ∧ (2 : PortId) ≠ 3 ∧ (0 : PortId) ≠ 2 := by decide

/-- An operation gives a next state in which the register it writes differs. -/
theorem witness_core_writers :
    after (exec .acqWlatch (atAdc 0 0 5)) (fun t => decide (t.core.dw ≠ 0)) = some true ∧
    after (whole .acqElatchFsel (atAdc 0 0 5)) (fun t => decide (t.core.de ≠ 0)) = some true ∧
    after (exec .acqFlatch (atAdc 0 0 5)) (fun t => decide (t.core.df ≠ 0)) = some true ∧
    after (exec (.advInc 1) (atCount 1 0)) (fun t => decide (t.core.cnt ≠ 1 ∧ t.core.det ≠ 0)) = some true ∧
    after (exec .tri (atTri 0 0)) (fun t => decide (t.core.tri ≠ 0)) = some true ∧
    after (exec .noise State.reset) (fun t => decide (t.core.rng ≠ 1)) = some true := by decide

theorem witness_device_writers :
    after (exec .tInit (timerAt 3 5 5 true)) (fun t => decide (t.timer.tcnt ≠ 3 ∧ t.timer.tper ≠ 5 ∧ t.timer.tnxt ≠ 5 ∧
      t.timer.matchFlag ≠ true)) = some true ∧
    after (exec (.tSetper 7) (timerAt 3 5 5 true)) (fun t => decide (t.timer.tnxt ≠ 5)) = some true ∧
    after (exec .encSingle (withSample 1)) (fun t => decide (t.ports ≠ portsReset)) = some true := by decide

/-- A state whose next move is given. -/
def moving (m : Move) (s : State) : State := s.setEnv { script := [m], draws := 0 }

theorem witness_other_agent_moves : (moving .timerMatch (timerAt 0 5 5 false)).nextMove ≠ .core ∧
    (moving .timerMatch (timerAt 0 5 5 false)).nextMove ≠ .reset ∧
    after (step (moving .timerMatch (timerAt 0 5 5 false))) (fun t => t.timer.matchFlag) = some true ∧
    (moving .reset State.reset).nextMove = .reset := by decide

/-- A state of the invariant at a phase that reads: the conversion is done. -/
def readingState : State :=
  moving .core ((((atCount 0x0120 0x0110).setSeq { fstep := .acq, boot := .dInit, chan := .sine, part := 0 }).setTimer
    { tcnt := 3, tper := 5, tnxt := 7, matchFlag := false, running := true }).setAdc
    { ach := 0, abusy := false, adone := true, ares := 0x155, asettle := false })

theorem witness_invariant : Inv readingState :=
  { good := Config.default_good
    flags := by unfold adcFlagsExclusive; decide
    rng := by unfold rngNonzero; decide
    periods := by unfold periodsNonzero; decide
    started := fun _ => rfl
    polls := by intro h; exact absurd h (by decide)
    zero := by intro h; exact absurd h (by decide)
    idle := fun _ => rfl
    rests := .inl rfl
    part := by unfold partInRange; decide
    between := fun _ h => absurd rfl h }

theorem witness_invariant_steps : after (step readingState) (fun t => (t.adc.abusy, t.seq.fstep)) =
    some (false, .acq) := by decide

theorem witness_fast_adc : AdcFast readingState.nextMove readingState := fun _ _ _ _ => rfl

theorem witness_good_parameters : Config.default.good = true := Config.default_good

/-- A frame of `SINGLE` mode at a phase that latches, with more moves to come. -/
def frameState : State :=
  (((atAdc 0x0140 0 0x180).setSeq { fstep := .wait, boot := .dInit, chan := .sine, part := 0 }).setTimer
    { tcnt := 3, tper := 5, tnxt := 7, matchFlag := true, running := true }).setEnv
    { script := coreMoves 7 ++ [.timerMatch], draws := 0 }

theorem witness_frame : GoodConfig frameState ∧ frameState.cfg.outputMode = .single ∧ frameState.seq.fstep = .wait ∧
    frameState.timer.matchFlag = true ∧ frameState.seq.part = 0 ∧ adcReady frameState ∧
    frameState.env.script = coreMoves (frameSteps frameState + 2) ++ [.timerMatch] :=
  ⟨Config.default_good, rfl, rfl, rfl, rfl, ⟨rfl, rfl⟩, rfl⟩

/-- A frame of `QUAD` mode at a phase that starts a conversion. -/
def quadFrameState : State :=
  { quadState samplesReset with
    core := { coreReset quadConfig with cnt := 0x0160 }
    seq := { fstep := .wait, boot := .dInit, chan := .sine, part := 0 }
    timer := { tcnt := 3, tper := 5, tnxt := 7, matchFlag := true, running := true }
    env := { script := coreMoves 16, draws := 0 } }

theorem witness_quad_frame : GoodConfig quadFrameState ∧ quadFrameState.cfg.outputMode = .quad ∧
    quadFrameState.seq.fstep = .wait ∧ quadFrameState.seq.chan = .sine ∧ quadFrameState.timer.matchFlag = true ∧
    quadFrameState.seq.part = 0 ∧ adcReady quadFrameState ∧
    quadFrameState.env.script = coreMoves (frameSteps quadFrameState + 8) ++ [] :=
  ⟨by unfold GoodConfig; decide +kernel, rfl, rfl, rfl, rfl, rfl, rfl, rfl⟩

end Sys2Proof.Tests
end

section
/-! PROOFS. The encoding (30_encoding.md): each field of a selector word as a quotient or a remainder, what a word of each
format selects, and the statements O6, O7 and O8. -/

namespace Sys2Proof

/-! ### The fields of a selector word as numbers (R91 to R96) -/

theorem variantField_toNat (dw : Dial) : (variantField dw).toNat = dw.toNat / 128 := by
  simp [variantField]; omega

theorem levelField_toNat (de : Dial) : (levelField de).toNat = de.toNat / 256 := by
  simp [levelField]; omega

theorem pidxField_toNat (df : Dial) : (pidxField df).toNat = df.toNat / 2 := by
  simp [pidxField]; omega

theorem bandField_toNat (b : BitVec 8) : (bandField b).toNat = b.toNat / 32 := by
  simp [bandField]; omega

theorem offField_toNat (b : BitVec 8) : (offField b).toNat = b.toNat % 32 := by
  simp [offField]

theorem offField_eq_zero (b : BitVec 8) : offField b = 0 ↔ b.toNat % 32 = 0 := by
  rw [← offField_toNat, ← BitVec.toNat_inj]; simp

/-- An acquisition word is its band and its offset, with no bit left over. -/
theorem bandField_append_offField (b : BitVec 8) : bandField b ++ offField b = b := by
  apply BitVec.eq_of_toNat_eq
  rw [BitVec.toNat_append, ← Nat.shiftLeft_add_eq_or_of_lt (offField b).isLt, Nat.shiftLeft_eq, bandField_toNat,
    offField_toNat]
  omega

/-! ### What a word selects (R99) -/

theorem quantizerOf_mem (level : BitVec 2) : quantizerOf level ∈ [Instr.qz32, .qz16, .qz8, .qz4] := by
  unfold quantizerOf
  split <;> simp

theorem advanceOf_hold_or_inc (k : BitVec 7) : advanceOf k = .advHold ∨ ∃ skip, advanceOf k = .advInc skip := by
  by_cases hk : k = 0
  · exact .inl (if_pos hk)
  · exact .inr ⟨k, if_neg hk⟩

/-- With offset 0 the word selects one of the eight acquisition operations. -/
theorem acquisitionOf_mem_phases {b : BitVec 8} (hoff : b.toNat % 32 = 0) :
    acquisitionOf b ∈ [Instr.acqWsel, .acqWdisc, .acqWlatch, .acqEsel, .acqEdisc, .acqElatchFsel, .acqFdisc,
      .acqFlatch] := by
  unfold acquisitionOf
  rw [if_pos ((offField_eq_zero b).2 hoff)]
  split <;> simp

/-- With any other offset the word is a no-op. -/
theorem acquisitionOf_eq_acqNop {b : BitVec 8} (hoff : b.toNat % 32 ≠ 0) :
    acquisitionOf b = .acqNop (bandField b) (offField b) :=
  if_neg fun h => hoff ((offField_eq_zero b).1 h)

/-- The no-op words are those with an offset other than 0: no phase operation is a no-op. -/
theorem exists_acquisitionOf_eq_acqNop (b : BitVec 8) :
    (∃ band off, acquisitionOf b = .acqNop band off) ↔ b.toNat % 32 ≠ 0 := by
  constructor
  · rintro ⟨band, off, hnop⟩ hoff
    have hmem := acquisitionOf_mem_phases hoff
    simp [hnop] at hmem
  · exact fun hoff => ⟨_, _, acquisitionOf_eq_acqNop hoff⟩

/-! ### An acquisition operation has one word (R96) -/

/-- A word with offset 0 is the phase word of its band. -/
theorem phaseWord_eq_of_fields {b : BitVec 8} {band : BitVec 3} (hoff : offField b = 0)
    (hband : (bandField b).toNat = band.toNat) : phaseWord band = b := by
  have hword := bandField_append_offField b
  rwa [hoff, BitVec.eq_of_toNat_eq hband] at hword

/-- The encoder gives the acquisition word back: an `APH` word has no don't-care bits. -/
theorem encode_acquisitionOf (cfg : Config) (b : BitVec 8) : encode cfg (acquisitionOf b) = .aph b := by
  unfold acquisitionOf
  split
  next hoff =>
    have hlt : (bandField b).toNat < 8 := (bandField b).isLt
    interval_cases hband : (bandField b).toNat <;> exact congrArg Selector.aph (phaseWord_eq_of_fields hoff hband)
  next => exact congrArg Selector.aph (bandField_append_offField b)

/-- No two acquisition words select the same operation. -/
theorem acquisitionOf_injective : Function.Injective acquisitionOf := fun b b' h => by
  have haph := congrArg (encode Config.default) h
  rw [encode_acquisitionOf, encode_acquisitionOf] at haph
  exact Selector.aph.inj haph

/-- The operation that an acquisition word `p` selects is selected exactly where the low byte of the counter is `p`. -/
theorem decode_acqWord_eq_iff (cfg : Config) (cnt : Counter) {p : BitVec 8} {i : Instr} (hp : acquisitionOf p = i) :
    decode cfg (.aph (acqWord cnt)) = .ok i ↔ cnt.toNat % 256 = p.toNat := by
  subst hp
  calc decode cfg (.aph (acqWord cnt)) = .ok (acquisitionOf p)
      ↔ acquisitionOf (acqWord cnt) = acquisitionOf p := by rw [decode, Except.ok.injEq]
    _ ↔ acqWord cnt = p := acquisitionOf_injective.eq_iff
    _ ↔ cnt.toNat % 256 = p.toNat := by rw [← BitVec.toNat_inj, Machine.acqWord_toNat]

/-- The counter selects a no-op exactly where its low five bits are not all 0. -/
theorem exists_decode_acqWord_eq_acqNop (cfg : Config) (cnt : Counter) :
    (∃ band off, decode cfg (.aph (acqWord cnt)) = .ok (.acqNop band off)) ↔ cnt.toNat % 32 ≠ 0 := by
  simp only [decode, Except.ok.injEq]
  rw [exists_acquisitionOf_eq_acqNop, Machine.acqWord_toNat, Nat.mod_mod_of_dvd _ (by decide)]

/-! ### The bits marked "ign" are don't-cares (R91, R101) -/

theorem decode_wsel_congr (cfg : Config) {w w' : Dial} (h : w.toNat / 128 = w'.toNat / 128) :
    decode cfg (.wsel w) = decode cfg (.wsel w') := by
  have hfield : variantField w = variantField w' := BitVec.eq_of_toNat_eq (by simpa only [variantField_toNat] using h)
  simp only [decode, hfield]

theorem decode_esel_congr (cfg : Config) {w w' : Dial} (h : w.toNat / 256 = w'.toNat / 256) :
    decode cfg (.esel w) = decode cfg (.esel w') := by
  have hfield : levelField w = levelField w' := BitVec.eq_of_toNat_eq (by simpa only [levelField_toNat] using h)
  simp only [decode, hfield]

theorem decode_fsel_congr (cfg : Config) {w w' : Dial} (h : w.toNat / 2 = w'.toNat / 2) :
    decode cfg (.fsel w) = decode cfg (.fsel w') := by
  have hfield : pidxField w = pidxField w' := BitVec.eq_of_toNat_eq (by simpa only [pidxField_toNat] using h)
  simp only [decode, hfield]

theorem pulseThreshold_congr {w w' : Dial} (h : w.toNat / 32 = w'.toNat / 32) :
    pulseThreshold w = pulseThreshold w' :=
  BitVec.eq_of_toNat_eq (by simp only [Machine.pulseThreshold_toNat, h])

/-- An acquisition word selects a phase operation where its offset is 0 and a no-op where it is not. -/
theorem decode_aph_phase_or_nop (cfg : Config) (b : BitVec 8) :
    (∃ i ∈ [Instr.acqWsel, .acqWdisc, .acqWlatch, .acqEsel, .acqEdisc, .acqElatchFsel, .acqFdisc, .acqFlatch],
      decode cfg (.aph b) = .ok i ∧ b.toNat % 32 = 0) ∨
    (∃ band off, decode cfg (.aph b) = .ok (.acqNop band off) ∧ b.toNat % 32 ≠ 0) := by
  by_cases hoff : b.toNat % 32 = 0
  · exact .inl ⟨_, acquisitionOf_mem_phases hoff, rfl, hoff⟩
  · exact .inr ⟨_, _, congrArg Except.ok (acquisitionOf_eq_acqNop hoff), hoff⟩

/-! ### The statements -/

/-- Settles O6: what a word of each format selects, then that the fields ignore the bits marked "ign". -/
theorem noSelectorIsIllegal : Obligations.NoSelectorIsIllegal := by
  intro cfg
  refine ⟨fun w => ⟨_, rfl⟩, fun w => ⟨_, quantizerOf_mem _, rfl⟩, fun w => ⟨_, rfl⟩, decode_aph_phase_or_nop cfg,
    fun k => ?_, fun _ _ => decode_wsel_congr cfg, fun _ _ => decode_esel_congr cfg, fun _ _ => pulseThreshold_congr,
    fun _ _ => decode_fsel_congr cfg⟩
  simpa only [decode, Except.ok.injEq] using advanceOf_hold_or_inc k

/-- Settles O7. -/
theorem levelAndIndexAreQuotients : Obligations.LevelAndIndexAreQuotients :=
  ⟨levelField_toNat, pidxField_toNat, by decide⟩

/-- Settles O8: each acquisition operation has one word, so it fires where the low byte of `CNT` is that word. -/
theorem acquisitionFiresExactlyAtPhases : Obligations.AcquisitionFiresExactlyAtPhases := fun cfg cnt =>
  ⟨decode_acqWord_eq_iff cfg cnt (p := 0x00) rfl, decode_acqWord_eq_iff cfg cnt (p := 0x20) rfl,
    decode_acqWord_eq_iff cfg cnt (p := 0x40) rfl, decode_acqWord_eq_iff cfg cnt (p := 0x60) rfl,
    decode_acqWord_eq_iff cfg cnt (p := 0x80) rfl, decode_acqWord_eq_iff cfg cnt (p := 0xA0) rfl,
    decode_acqWord_eq_iff cfg cnt (p := 0xC0) rfl, decode_acqWord_eq_iff cfg cnt (p := 0xE0) rfl,
    exists_decode_acqWord_eq_acqNop cfg cnt⟩

end Sys2Proof
end

section
/-! PROOFS. The frame scheduler (41_frame_scheduler.md): which counter operation `CNT[6:0]` selects, what `ADV.INC` writes as
numbers, and the statement O22. -/

namespace Sys2Proof

/-! ### The counter operations (R97, R128) -/

/-- One advance of a 16-bit counter is an addition modulo 65536 (R128). -/
theorem counter_add_one_toNat (c : Counter) : (c + 1).toNat = (c.toNat + 1) % 65536 :=
  BitVec.toNat_add c 1

/-- Where the low seven bits of the counter are not all 0, they select `ADV.INC` (R97). -/
theorem advanceOf_skipField_eq_advInc {cnt : Counter} (hskip : cnt.toNat % 128 ≠ 0) :
    advanceOf (skipField cnt) = .advInc (skipField cnt) :=
  if_neg fun hzero => hskip ((Machine.skipField_eq_zero cnt).1 hzero)

/-- `ADV.INC` always completes, and what it writes is the two counters; `skip` takes no part (R128). -/
theorem exec_advInc (skip : BitVec 7) (s : Machine.State) :
    Machine.exec (.advInc skip) s =
      .next (s.setCore { s.core with det := s.core.det + 1, cnt := s.core.cnt + 1 }) := rfl

/-! ### The statement -/

/-- Settles O22: the selection is that of `CNT[6:0]`, and the next state is `s` with new core registers. -/
theorem advIncAdvancesBoth : Obligations.AdvIncAdvancesBoth := by
  constructor
  · intro cfg cnt hskip
    exact congrArg Except.ok (advanceOf_skipField_eq_advInc hskip)
  · intro s skip
    exact ⟨_, exec_advInc skip s, counter_add_one_toNat _, counter_add_one_toNat _, rfl, rfl,
      Machine.keepsDevices_setCore s _⟩

end Sys2Proof
end

section
/-! PROOFS. The dial acquisition (42_dial_acquisition.md): the no-op frames, and the statement O29. -/

namespace Sys2Proof

/-- `ACQ.NOP` completes in the state it began in, whatever its fields: no HAL operation, no write, no event (R152). -/
theorem exec_acqNop (band : BitVec 3) (off : BitVec 5) (s : Machine.State) :
    Machine.exec (.acqNop band off) s = .next s := rfl

/-- Settles O29: a counter whose low five bits are not all 0 selects a no-op, and a no-op keeps the state. -/
theorem acqNopChangesNothing : Obligations.AcqNopChangesNothing := by
  constructor
  · intro cfg cnt hoff
    exact (exists_decode_acqWord_eq_acqNop cfg cnt).2 hoff
  · intro s band off
    exact exec_acqNop band off s

end Sys2Proof
end

section
/-! PROOFS. The effect processor (44_effect_processor.md): which quantizer `DE` selects, what a good table gives, one quantizer as the
function `quantized` of the sample, and the statements O16 to O20. -/

namespace Sys2Proof
open Sys2Proof.Machine

/-! ### Selection (R93, R99) -/

/-- No two levels select the same quantizer. -/
theorem quantizerOf_injective : Function.Injective quantizerOf := by
  unfold Function.Injective
  decide

/-- The quantizer of level `p` is selected exactly by the 256 values of `DE` from `256 * p` on. -/
theorem decode_esel_eq_iff (cfg : Config) (de : Dial) {p : BitVec 2} {i : Instr} (hp : quantizerOf p = i) :
    decode cfg (.esel de) = .ok i ↔ 256 * p.toNat ≤ de.toNat ∧ de.toNat < 256 * p.toNat + 256 := by
  subst hp
  calc decode cfg (.esel de) = .ok (quantizerOf p)
      ↔ quantizerOf (levelField de) = quantizerOf p := by rw [decode, Except.ok.injEq]
    _ ↔ levelField de = p := quantizerOf_injective.eq_iff
    _ ↔ de.toNat / 256 = p.toNat := by rw [← BitVec.toNat_inj, levelField_toNat]
    _ ↔ 256 * p.toNat ≤ de.toNat ∧ de.toNat < 256 * p.toNat + 256 := by omega

/-! ### The quantization tables (R67) -/

/-- An entry below 32 is not changed by its way into the 5-bit sample. -/
theorem entry_setWidth_toNat {x : BitVec 8} (hx : x.toNat < 32) : (x.setWidth 5).toNat = x.toNat := by
  rw [BitVec.toNat_setWidth]
  exact Nat.mod_eq_of_lt hx

theorem goodQuantTable_entry_lt {n i : Nat} {q : List (BitVec 8)} {x : BitVec 8} (hq : goodQuantTable n q = true)
    (hx : q[i]? = some x) : x.toNat < 32 := by
  obtain ⟨-, hlt, -, -⟩ := goodQuantTable_facts hq
  simpa [BitVec.lt_def] using hlt x (List.mem_of_getElem? hx)

/-- What a sample is quantized to is quantized to itself (R215). -/
theorem goodQuantTable_idempotent {n : Nat} {q : List (BitVec 8)} (hq : goodQuantTable n q = true) {v w : Sample}
    (h : (q[v.toNat]?).map (BitVec.setWidth 5) = some w) : (q[w.toNat]?).map (BitVec.setWidth 5) = some w := by
  obtain ⟨x, hx, rfl⟩ := Option.map_eq_some_iff.1 h
  obtain ⟨-, -, hfix, -⟩ := goodQuantTable_facts hq
  rw [entry_setWidth_toNat (goodQuantTable_entry_lt hq hx), hfix x (List.mem_of_getElem? hx)]
  rfl

/-- A larger sample is not quantized to a smaller one (R215). -/
theorem goodQuantTable_monotone {n : Nat} {q : List (BitVec 8)} (hq : goodQuantTable n q = true) {v v' w w' : Sample}
    (hle : v ≤ v') (h : (q[v.toNat]?).map (BitVec.setWidth 5) = some w)
    (h' : (q[v'.toNat]?).map (BitVec.setWidth 5) = some w') : w ≤ w' := by
  obtain ⟨x, hx, rfl⟩ := Option.map_eq_some_iff.1 h
  obtain ⟨x', hx', rfl⟩ := Option.map_eq_some_iff.1 h'
  obtain ⟨-, -, -, hrise⟩ := goodQuantTable_facts hq
  have hxx' : x ≤ x' := nonDecreasing_get hrise _ _ x x' (BitVec.le_def.1 hle) hx hx'
  rw [BitVec.le_def, entry_setWidth_toNat (goodQuantTable_entry_lt hq hx),
    entry_setWidth_toNat (goodQuantTable_entry_lt hq hx')]
  exact BitVec.le_def.1 hxx'

/-- A quantizer with a good table completes: it puts the entry at the sample and changes nothing else (R212 to R214). -/
theorem quantizeBy_reads_table {n : Nat} {q : List (BitVec 8)} (hq : goodQuantTable n q = true) (space : TableSpace)
    (s : State) :
    ∃ v t, q[s.sample.toNat]? = some v ∧ quantizeBy space q s = .next t ∧ onlySample s t v.toNat := by
  obtain ⟨v, hv, hlt⟩ := goodQuantTable_get hq s.sample
  refine ⟨v, _, hv, quantizeBy_eq_next.2 ⟨v, hv, rfl⟩, ?_⟩
  have honly := onlySample_putSample s (v.setWidth 5)
  rwa [entry_setWidth_toNat hlt] at honly

/-! ### A quantizer as a function of the sample (R210) -/

/-- The quantizer that `DE` selects puts what `quantized` gives, and gives no next state where that gives nothing. -/
theorem exec_quantizerOf_eq_next {de : Dial} {s t : State} :
    exec (quantizerOf (levelField de)) s = .next t ↔
      ∃ v, quantized s.cfg de s.sample = some v ∧ t = s.putSample v := by
  have table (space : TableSpace) (q : List (BitVec 8)) : quantizeBy space q s = .next t ↔
      ∃ v, (q[s.sample.toNat]?).map (BitVec.setWidth 5) = some v ∧ t = s.putSample v := by
    simp [quantizeBy_eq_next, Option.map_eq_some_iff]
  have hlt : (levelField de).toNat < 4 := (levelField de).isLt
  unfold quantizerOf quantized
  interval_cases (levelField de).toNat
  · simp [exec, execQz32, eq_comm]
  · exact table .q16 s.cfg.q16
  · exact table .q8 s.cfg.q8
  · exact table .q4 s.cfg.q4

/-- Each level either is the identity or reads a good table. -/
theorem quantized_identity_or_table {cfg : Config} (hgood : cfg.good = true) (de : Dial) :
    (∀ v, quantized cfg de v = some v) ∨
    ∃ n q, goodQuantTable n q = true ∧ ∀ v, quantized cfg de v = (q[v.toNat]?).map (BitVec.setWidth 5) := by
  unfold quantized
  have hlt : (levelField de).toNat < 4 := (levelField de).isLt
  interval_cases (levelField de).toNat
  · exact .inl fun _ => rfl
  · exact .inr ⟨16, cfg.q16, Config.good_q16 hgood, fun _ => rfl⟩
  · exact .inr ⟨8, cfg.q8, Config.good_q8 hgood, fun _ => rfl⟩
  · exact .inr ⟨4, cfg.q4, Config.good_q4 hgood, fun _ => rfl⟩

/-- Under good parameters every sample is quantized. -/
theorem exists_quantized {cfg : Config} (hgood : cfg.good = true) (de : Dial) (v : Sample) :
    ∃ w, quantized cfg de v = some w := by
  obtain hid | ⟨n, q, hq, htable⟩ := quantized_identity_or_table hgood de
  · exact ⟨v, hid v⟩
  · obtain ⟨x, hx, -⟩ := goodQuantTable_get hq v
    exact ⟨x.setWidth 5, by rw [htable, hx]; rfl⟩

theorem quantized_idempotent {cfg : Config} (hgood : cfg.good = true) {de : Dial} {v w : Sample}
    (h : quantized cfg de v = some w) : quantized cfg de w = some w := by
  obtain hid | ⟨n, q, hq, htable⟩ := quantized_identity_or_table hgood de
  · exact hid w
  · rw [htable] at h ⊢
    exact goodQuantTable_idempotent hq h

theorem quantized_monotone {cfg : Config} (hgood : cfg.good = true) {de : Dial} {v v' w w' : Sample} (hle : v ≤ v')
    (h : quantized cfg de v = some w) (h' : quantized cfg de v' = some w') : w ≤ w' := by
  obtain hid | ⟨n, q, hq, htable⟩ := quantized_identity_or_table hgood de
  · rw [hid, Option.some.injEq] at h h'
    exact h ▸ h' ▸ hle
  · rw [htable] at h h'
    exact goodQuantTable_monotone hq hle h h'

/-! ### The statements -/

/-- Settles O20: the operation is the function `quantized` on the sample, which is idempotent and monotone. -/
theorem quantizingIsIdempotentAndMonotone : Obligations.QuantizingIsIdempotentAndMonotone := by
  intro s de i hgood hdecode
  obtain rfl : quantizerOf (levelField de) = i := Except.ok.inj hdecode
  constructor
  · obtain ⟨w, hw⟩ := exists_quantized hgood de s.sample
    refine ⟨s.putSample w, (s.putSample w).putSample w, exec_quantizerOf_eq_next.2 ⟨w, hw, rfl⟩,
      exec_quantizerOf_eq_next.2 ⟨w, ?_, rfl⟩, by simp⟩
    simpa using quantized_idempotent hgood hw
  · intro r t u hcfg hle hr hs
    obtain ⟨w, hw, rfl⟩ := exec_quantizerOf_eq_next.1 hr
    obtain ⟨w', hw', rfl⟩ := exec_quantizerOf_eq_next.1 hs
    rw [hcfg] at hw
    simpa using quantized_monotone hgood hle hw hw'

/-- Settles O16: the sample is put back where it was. -/
theorem qz32IsIdentity : Obligations.Qz32IsIdentity := by
  intro s
  refine ⟨fun de => ?_, _, rfl, onlySample_putSample s s.sample⟩
  exact (decode_esel_eq_iff s.cfg de (p := 0) rfl).trans (and_iff_right (Nat.zero_le _))

/-- Settles O17. -/
theorem qz16ReadsTable : Obligations.Qz16ReadsTable := fun s hgood =>
  ⟨fun de => decode_esel_eq_iff s.cfg de (p := 1) rfl, quantizeBy_reads_table (Config.good_q16 hgood) .q16 s, by decide⟩

/-- Settles O18. -/
theorem qz8ReadsTable : Obligations.Qz8ReadsTable := fun s hgood =>
  ⟨fun de => decode_esel_eq_iff s.cfg de (p := 2) rfl, quantizeBy_reads_table (Config.good_q8 hgood) .q8 s, by decide⟩

/-- Settles O19: the range has no upper end but the width of `DE`. -/
theorem qz4ReadsTable : Obligations.Qz4ReadsTable := fun s hgood =>
  ⟨fun de => (decode_esel_eq_iff s.cfg de (p := 3) rfl).trans (and_iff_left de.isLt),
    quantizeBy_reads_table (Config.good_q4 hgood) .q4 s, by decide⟩

end Sys2Proof
end

section
/-! PROOFS. The writers of the core registers (10_state.md section 2): the operations that keep them all, the seven that write one, the
position at which an acquisition operation is selected, and the statement O49. -/

namespace Sys2Proof
open Sys2Proof.Machine

/-! ### Keeping the core registers -/

/-- `t` has the core registers of R21 to R25 and the position of `s`. The fields `res` and `rdblk` of the model's own (logs 11, 12)
are not among them. -/
def keepsRegisters (s t : State) : Prop :=
  t.seq.fstep = s.seq.fstep ∧ keepsDials s t ∧ keepsCounters s t ∧ keepsGenerators s t

theorem keepsRegisters_of_core {s t : State} {res : Dial} {rdblk : Bool}
    (hcore : t.core = { s.core with res := res, rdblk := rdblk }) (hstep : t.seq.fstep = s.seq.fstep) :
    keepsRegisters s t := by
  simp [keepsRegisters, keepsDials, keepsCounters, keepsGenerators, hcore, hstep]

theorem keepsRegisters_of_core_eq {s t : State} (hcore : t.core = s.core) (hstep : t.seq.fstep = s.seq.fstep) :
    keepsRegisters s t :=
  keepsRegisters_of_core (res := s.core.res) (rdblk := s.core.rdblk) hcore hstep

theorem keepsRegisters_refl (s : State) : keepsRegisters s s := keepsRegisters_of_core_eq rfl rfl

theorem keepsRegisters_trans {s t u : State} (hst : keepsRegisters s t) (htu : keepsRegisters t u) :
    keepsRegisters s u := by
  simp_all [keepsRegisters, keepsDials, keepsCounters, keepsGenerators]

/-! ### The shared operations keep them -/

theorem putSample_keepsRegisters {s t : State} {v : Sample} (h : (.next (s.putSample v) : Result) = .next t) :
    keepsRegisters s t := by
  cases h
  exact keepsRegisters_of_core_eq (by simp) (by simp)

theorem quantizeBy_keepsRegisters {space : TableSpace} {q : List (BitVec 8)} {s t : State}
    (h : quantizeBy space q s = .next t) : keepsRegisters s t := by
  obtain ⟨v, -, rfl⟩ := quantizeBy_eq_next.1 h
  exact putSample_keepsRegisters rfl

theorem setPeriod_keepsRegisters {pidx : BitVec 9} {v : Period} {s t : State} (h : setPeriod pidx v s = .next t) :
    keepsRegisters s t := by
  obtain ⟨-, rfl⟩ := setPeriod_eq_next.1 h
  exact keepsRegisters_of_core_eq rfl rfl

theorem memWritePort_keepsRegisters {p : PortId} {v : PortWord} {s t : State} (h : memWritePort p v s = .next t) :
    keepsRegisters s t := by
  obtain ⟨-, rfl⟩ := memWritePort_eq_next.1 h
  exact keepsRegisters_of_core_eq rfl rfl

theorem selectChannel_keepsRegisters {ch : ChannelId} {s t : State} (h : selectChannel ch s = .next t) :
    keepsRegisters s t := by
  obtain ⟨-, -, rfl⟩ := selectChannel_eq_next.1 h
  exact keepsRegisters_of_core_eq rfl rfl

theorem startConversion_keepsRegisters {s t : State} (h : startConversion s = .next t) : keepsRegisters s t := by
  obtain ⟨-, rfl⟩ := startConversion_eq_next.1 h
  exact keepsRegisters_of_core_eq rfl rfl

theorem readResult_keepsRegisters {s t : State} (h : readResult s = .next t) : keepsRegisters s t := by
  obtain ⟨-, rfl⟩ := readResult_eq_next.1 h
  exact keepsRegisters_of_core rfl rfl

theorem pollDone_keepsRegisters {s t : State} (h : pollDone s = .next t) : keepsRegisters s t := by
  rw [pollDone_eq] at h
  cases h
  exact keepsRegisters_of_core rfl rfl

theorem configure_keepsRegisters {p : Peripheral} {s t u : State} (h : configure p u s = .next t)
    (hkeep : keepsRegisters s u) : keepsRegisters s t := by
  obtain ⟨-, rfl⟩ := configure_eq_next.1 h
  exact hkeep

theorem andThen_keepsRegisters {r : Result} {k : State → Result} {s t : State}
    (hr : ∀ {u}, r = .next u → keepsRegisters s u) (hk : ∀ {u}, k u = .next t → keepsRegisters u t)
    (h : andThen r k = .next t) : keepsRegisters s t := by
  obtain ⟨u, hu, ht⟩ := andThen_eq_next.1 h
  exact keepsRegisters_trans (hr hu) (hk ht)

theorem stage_keepsRegisters {k : Fin 3} {r : Result} {s t : State} (hr : ∀ {u}, r = .next u → keepsRegisters s u)
    (h : stage k r = .next t) : keepsRegisters s t := by
  obtain ⟨u, hu, rfl⟩ := stage_eq_next.1 h
  exact keepsRegisters_trans (hr hu) (keepsRegisters_of_core_eq rfl rfl)

theorem selectAndStart_keepsRegisters {ch : ChannelId} {s t : State} (h : selectAndStart ch s = .next t) :
    keepsRegisters s t := by
  unfold selectAndStart at h
  split at h
  · exact stage_keepsRegisters selectChannel_keepsRegisters h
  · exact stage_keepsRegisters startConversion_keepsRegisters h

theorem discardAndStart_keepsRegisters {s t : State} (h : discardAndStart s = .next t) : keepsRegisters s t := by
  unfold discardAndStart at h
  split at h
  · exact stage_keepsRegisters readResult_keepsRegisters h
  · exact stage_keepsRegisters startConversion_keepsRegisters h

theorem execEncQuad_keepsRegisters {s t : State} (h : execEncQuad s = .next t) : keepsRegisters s t := by
  unfold execEncQuad at h
  split at h
  all_goals exact stage_keepsRegisters memWritePort_keepsRegisters h

theorem execTWaitclr_keepsRegisters {s t : State} (h : execTWaitclr s = .next t) : keepsRegisters s t := by
  unfold execTWaitclr at h
  split at h <;> cases h <;> exact keepsRegisters_of_core_eq rfl rfl

theorem finishRead_keepsRegisters {s t : State} (h : finishRead s = .next t) : keepsRegisters s t := by
  refine andThen_keepsRegisters pollDone_keepsRegisters (andThen_keepsRegisters readResult_keepsRegisters ?_) h
  intro u hu
  cases hu
  exact keepsRegisters_of_core rfl rfl

theorem execAReadblk_keepsRegisters {s t : State} (h : execAReadblk s = .next t) : keepsRegisters s t := by
  unfold execAReadblk at h
  split at h
  · split at h
    · exact finishRead_keepsRegisters h
    · cases h
      exact keepsRegisters_refl s
  · refine andThen_keepsRegisters startConversion_keepsRegisters ?_ h
    intro u hu
    cases hu
    exact keepsRegisters_of_core rfl rfl

/-! ### The writers (R21 to R25) -/

/-- From `s` to `t` a core register changes only if `i` is the operation that its entry names, and the position does not change. -/
structure WritesAsNamed (i : Instr) (s t : State) : Prop where
  position : t.seq.fstep = s.seq.fstep
  dw  : t.core.dw ≠ s.core.dw → i = .acqWlatch
  de  : t.core.de ≠ s.core.de → i = .acqElatchFsel
  df  : t.core.df ≠ s.core.df → i = .acqFlatch
  cnt : t.core.cnt ≠ s.core.cnt → i = .advHold ∨ ∃ skip, i = .advInc skip
  det : t.core.det ≠ s.core.det → ∃ skip, i = .advInc skip
  tri : t.core.tri ≠ s.core.tri → i = .tri
  rng : t.core.rng ≠ s.core.rng → i = .noise

/-- What keeps the registers needs no writer. -/
theorem keepsRegisters.writesAsNamed {s t : State} (h : keepsRegisters s t) (i : Instr) : WritesAsNamed i s t := by
  obtain ⟨hstep, ⟨hdw, hde, hdf⟩, ⟨hcnt, hdet⟩, htri, hrng⟩ := h
  exact ⟨hstep, absurd hdw, absurd hde, absurd hdf, absurd hcnt, absurd hdet, absurd htri, absurd hrng⟩

theorem execAcqWlatch_writesAsNamed {s t : State} (h : execAcqWlatch s = .next t) : WritesAsNamed .acqWlatch s t := by
  obtain ⟨u, hread, hlatch⟩ := andThen_eq_next.1 h
  obtain ⟨-, rfl⟩ := readResult_eq_next.1 hread
  cases hlatch
  constructor <;> simp

theorem execAcqFlatch_writesAsNamed {s t : State} (h : execAcqFlatch s = .next t) : WritesAsNamed .acqFlatch s t := by
  obtain ⟨u, hread, hlatch⟩ := andThen_eq_next.1 h
  obtain ⟨-, rfl⟩ := readResult_eq_next.1 hread
  cases hlatch
  constructor <;> simp

/-- Of its three HAL operations the first latches `DE`, the other two keep every register. -/
theorem execAcqElatchFsel_writesAsNamed {s t : State} (h : execAcqElatchFsel s = .next t) :
    WritesAsNamed .acqElatchFsel s t := by
  unfold execAcqElatchFsel at h
  split at h
  · obtain ⟨v, hv, rfl⟩ := stage_eq_next.1 h
    obtain ⟨u, hread, hlatch⟩ := andThen_eq_next.1 hv
    obtain ⟨-, rfl⟩ := readResult_eq_next.1 hread
    cases hlatch
    constructor <;> simp
  · exact (stage_keepsRegisters selectChannel_keepsRegisters h).writesAsNamed _
  · exact (stage_keepsRegisters startConversion_keepsRegisters h).writesAsNamed _

/-- Every operation: seven write a register, the others keep them all. -/
theorem exec_writesAsNamed {i : Instr} {s t : State} (h : exec i s = .next t) : WritesAsNamed i s t := by
  cases i with
  | tri | noise | advHold | advInc => cases h; constructor <;> simp
  | acqWlatch => exact execAcqWlatch_writesAsNamed h
  | acqElatchFsel => exact execAcqElatchFsel_writesAsNamed h
  | acqFlatch => exact execAcqFlatch_writesAsNamed h
  | sine =>
    obtain ⟨v, -, hput⟩ := memRead_eq_next.1 h
    exact (putSample_keepsRegisters hput).writesAsNamed _
  | pulse | saw | ssaw | csaw | cssaw | qz32 => exact (putSample_keepsRegisters h).writesAsNamed _
  | qz16 | qz8 | qz4 => exact (quantizeBy_keepsRegisters h).writesAsNamed _
  | reload pidx =>
    obtain ⟨v, -, hset⟩ := memRead_eq_next.1 h
    exact (setPeriod_keepsRegisters hset).writesAsNamed _
  | acqWsel | acqEsel => exact (selectAndStart_keepsRegisters h).writesAsNamed _
  | acqWdisc | acqEdisc | acqFdisc => exact (discardAndStart_keepsRegisters h).writesAsNamed _
  | acqNop => cases h; exact (keepsRegisters_refl s).writesAsNamed _
  | encSingle | dWrite => exact (memWritePort_keepsRegisters h).writesAsNamed _
  | encQuad => exact (execEncQuad_keepsRegisters h).writesAsNamed _
  | tInit | aInit | dInit =>
    exact (configure_keepsRegisters h (keepsRegisters_of_core_eq rfl rfl)).writesAsNamed _
  | tSetper => exact (setPeriod_keepsRegisters h).writesAsNamed _
  | tWaitclr => exact (execTWaitclr_keepsRegisters h).writesAsNamed _
  | aSel => exact (selectChannel_keepsRegisters h).writesAsNamed _
  | aStart => exact (startConversion_keepsRegisters h).writesAsNamed _
  | aDone => exact (pollDone_keepsRegisters h).writesAsNamed _
  | aRead => exact (readResult_keepsRegisters h).writesAsNamed _
  | aReadblk => exact (execAReadblk_keepsRegisters h).writesAsNamed _

/-! ### Where an acquisition operation is selected (R99, R123) -/

theorem Variant.generator_format (v : Variant) : v.generator.format = .wsel := by
  cases v <;> rfl

theorem Channel.generator_format (ch : Channel) : ch.generator.format = .wsel := by
  cases ch <;> rfl

theorem OutputMode.encoder_format (m : OutputMode) : m.encoder.format = .cfg := by
  cases m <;> rfl

theorem quantizerOf_format (level : BitVec 2) : (quantizerOf level).format = .esel := by
  unfold quantizerOf
  split <;> rfl

theorem advanceOf_format (k : BitVec 7) : (advanceOf k).format = .adv := by
  obtain h | ⟨skip, h⟩ := advanceOf_hold_or_inc k <;> rw [h] <;> rfl

/-- Outside the reset sequence every position selects a word. -/
theorem selector_ne_none {s : State} (hboot : s.seq.fstep ≠ .boot) : s.selector ≠ none := by
  unfold State.selector
  cases hstep : s.seq.fstep
  case boot => exact absurd hstep hboot
  case synth => cases s.cfg.outputMode <;> simp
  all_goals simp

/-- Outside the reset sequence each position selects operations of its own format, and `ACQ` alone those of format `APH`. -/
theorem selected_aph_at_acq {s : State} {sel : Selector} {i : Instr} (hboot : s.seq.fstep ≠ .boot)
    (hsel : s.selector = some sel) (hdecode : decode s.cfg sel = .ok i) (hformat : i.format = .aph) :
    s.seq.fstep = .acq ∧ sel = .aph (acqWord s.core.cnt) := by
  unfold State.selector at hsel
  cases hstep : s.seq.fstep <;> simp only [hstep] at hsel
  case boot => exact absurd hstep hboot
  case acq => exact ⟨rfl, (Option.some.inj hsel).symm⟩
  case wait => cases hsel; cases hdecode; cases hformat
  case reload => cases hsel; cases hdecode; cases hformat
  case synth =>
    split at hsel <;> cases hsel <;> cases hdecode
    · simp [Variant.generator_format] at hformat
    · simp [Channel.generator_format] at hformat
  case effect => cases hsel; cases hdecode; simp [quantizerOf_format] at hformat
  case encode => cases hsel; cases hdecode; simp [OutputMode.encoder_format] at hformat
  case advance => cases hsel; cases hdecode; simp [advanceOf_format] at hformat

/-- Outside the reset sequence the operation of an acquisition word `p` is selected only in the `ACQ` step of a frame whose counter
has the low byte `p`. -/
theorem selected_phase {s : State} {sel : Selector} {i : Instr} (hboot : s.seq.fstep ≠ .boot)
    (hsel : s.selector = some sel) (hdecode : decode s.cfg sel = .ok i) (hformat : i.format = .aph) {p : BitVec 8}
    (hp : acquisitionOf p = i) : s.seq.fstep = .acq ∧ s.core.cnt.toNat % 256 = p.toNat := by
  obtain ⟨hacq, rfl⟩ := selected_aph_at_acq hboot hsel hdecode hformat
  exact ⟨hacq, (decode_acqWord_eq_iff s.cfg s.core.cnt hp).1 hdecode⟩

/-! ### Whole steps -/

/-- The timer and the ADC write no core register (R20). -/
theorem moveStep_core_of_agent {m : Move} {s t : State} (h : moveStep m s = .next t) (hcore : m ≠ .core)
    (hreset : m ≠ .reset) : t.core = s.core := by
  cases m with
  | core => exact absurd rfl hcore
  | timerClock => obtain ⟨-, rfl⟩ | ⟨-, -, -, rfl⟩ | ⟨-, -, -, rfl⟩ := timerClock_eq_next h <;> rfl
  | timerMatch => obtain ⟨-, rfl⟩ | ⟨-, rfl⟩ := timerMatch_eq_next h <;> rfl
  | adcComplete ain residual => obtain ⟨-, rfl⟩ | ⟨-, rfl⟩ := adcComplete_eq_next h <;> rfl
  | reset => exact absurd rfl hreset

/-- Outside the reset sequence a step of the core writes what the operation it selects writes: going on writes no register. -/
theorem coreStep_core_after_boot {s t : State} (h : coreStep s = .next t) (hboot : s.seq.fstep ≠ .boot) :
    ∃ sel i u, s.selector = some sel ∧ decode s.cfg sel = .ok i ∧ WritesAsNamed i s u ∧ t.core = u.core := by
  obtain ⟨-, ⟨hnone, -⟩ | ⟨sel, i, u, hsel, hdecode, hexec, rfl⟩⟩ := coreStep_eq_next h
  · exact absurd hnone (selector_ne_none hboot)
  · have hwrites := exec_writesAsNamed hexec
    refine ⟨sel, i, u, hsel, hdecode, hwrites, ?_⟩
    split
    · exact State.advance_core (hwrites.position ▸ hboot)
    · rfl

/-- Outside the reset sequence a step of the core changes a dial only at the phase of its latch (R154, R217). -/
theorem coreStep_dials_after_boot {s t : State} (h : coreStep s = .next t) (hboot : s.seq.fstep ≠ .boot) :
    (t.core.dw ≠ s.core.dw → s.seq.fstep = .acq ∧ s.core.cnt.toNat % 256 = 0x40) ∧
    (t.core.de ≠ s.core.de → s.seq.fstep = .acq ∧ s.core.cnt.toNat % 256 = 0xA0) ∧
    (t.core.df ≠ s.core.df → s.seq.fstep = .acq ∧ s.core.cnt.toNat % 256 = 0xE0) := by
  obtain ⟨sel, i, u, hsel, hdecode, hwrites, hcore⟩ := coreStep_core_after_boot h hboot
  rw [hcore]
  refine ⟨fun hdw => ?_, fun hde => ?_, fun hdf => ?_⟩
  · obtain rfl := hwrites.dw hdw
    exact selected_phase hboot hsel hdecode rfl (p := 0x40) rfl
  · obtain rfl := hwrites.de hde
    exact selected_phase hboot hsel hdecode rfl (p := 0xA0) rfl
  · obtain rfl := hwrites.df hdf
    exact selected_phase hboot hsel hdecode rfl (p := 0xE0) rfl

/-! ### The statement -/

/-- Settles O49: the writers of every operation, then for whole steps the core's own move and the moves of the other agents. -/
theorem coreRegisterWriters : Obligations.CoreRegisterWriters := by
  constructor
  · intro i s t h
    obtain ⟨-, hdw, hde, hdf, hcnt, hdet, htri, hrng⟩ := exec_writesAsNamed h
    exact ⟨hdw, hde, hdf, hcnt, hdet, htri, hrng⟩
  · intro s t h hboot hreset
    rw [step_eq] at h
    by_cases hmove : s.nextMove = .core
    · rw [hmove] at h
      simpa using coreStep_dials_after_boot (s := s.afterMove) h (by simpa using hboot)
    · simp [moveStep_core_of_agent h hmove hreset]

end Sys2Proof
end

section
/-! PROOFS. The output encoder (45_output_encoder.md): when a port write is refused, the word of `SINGLE` mode under the default map,
the three writes of `ENC.QUAD` as one function of how many are done, and the statements O31 and O32. -/

namespace Sys2Proof
open Sys2Proof.Machine

/-! ### Ports in use (20 R63, R73) -/

theorem portInUse_iff {s : State} {p : PortId} : s.portInUse p = true ↔ p.toNat < s.cfg.nPorts ∧ p ≠ 3 := by
  simp [State.portInUse]

/-- A port write is refused exactly for a port that is not in use. -/
theorem memWritePort_eq_refused {p : PortId} {v : PortWord} {s : State} {q : Refusal} :
    memWritePort p v s = .refused q ↔ ¬s.portInUse p = true ∧ q = .portNotInUse p := by
  unfold memWritePort
  split
  next huse => simp [huse]
  next huse => simpa [huse] using eq_comm

/-! ### `ENC.SINGLE` (R221) -/

/-- The default map copies the five bits of the sample and leaves the bits above them 0. -/
theorem singleWord_default_toNat {cfg : Config} (hmap : cfg.singlePinmap = defaultSinglePinmap) (q : Sample) :
    (singleWord cfg q).toNat = q.toNat := by
  unfold singleWord
  rw [hmap]
  revert q
  decide

/-- `ENC.SINGLE` to a port in use is one port write. -/
theorem exec_encSingle {s : State} (hport : s.portInUse s.cfg.singlePinmap.port = true) :
    exec .encSingle s = .next
      ((s.setPorts (s.ports.write s.cfg.singlePinmap.port (singleWord s.cfg s.samples.mono))).emit
        (.dWrite s.cfg.singlePinmap.port (singleWord s.cfg s.samples.mono))) :=
  memWritePort_eq_next.2 ⟨hport, rfl⟩

/-- Settles O31: the port write of `SINGLE_PINMAP`'s word, or its refusal. -/
theorem encSingleWritesSample : Obligations.EncSingleWritesSample := by
  intro s
  constructor
  · intro hport
    refine ⟨_, singleWord s.cfg s.samples.mono, exec_encSingle (portInUse_iff.2 hport), rfl, rfl,
      ⟨⟨rfl, rfl⟩, rfl, rfl, rfl, rfl, rfl⟩, fun b hb => portWordOf_getLsbD hb, fun hmap => ⟨?_, ?_⟩⟩
    · simp [hmap, defaultSinglePinmap, Ports.write]
    · exact singleWord_default_toNat hmap _
  · intro hport
    exact memWritePort_eq_refused.2 ⟨mt portInUse_iff.1 hport, rfl⟩

/-! ### `ENC.QUAD` (R222, D4, D28) -/

/-- The row of `QUAD_PINMAP` that is written after `k` writes. -/
def QuadPinmap.row (m : QuadPinmap) (k : Fin 3) : PortMap QuadPin :=
  match k with
  | 0 => m.p0
  | 1 => m.p1
  | 2 => m.p2

/-- The word of that row. -/
def Machine.State.rowWord (s : State) (k : Fin 3) : PortWord := quadWord (s.cfg.quadPinmap.row k) s.samples

/-- The state after one write of `ENC.QUAD`, where `k` were done before: port `k` holds its word, and after the last write the count is
0 again. -/
def Machine.State.writeRow (s : State) (k : Fin 3) : State :=
  let p : PortId := BitVec.ofNat 2 k.val
  ((s.setPorts (s.ports.write p (s.rowWord k))).emit (.dWrite p (s.rowWord k))).setPart (k + 1)

/-- In a build of three ports each step of `ENC.QUAD` is the next write. -/
theorem exec_encQuad {s : State} {k : Fin 3} (hports : 3 ≤ s.cfg.nPorts) (hpart : s.seq.part = k) :
    exec .encQuad s = .next (s.writeRow k) := by
  have huse (p : PortId) (hp : p ≠ 3) : s.portInUse p = true := by
    rw [portInUse_iff]
    bv_omega
  change execEncQuad s = _
  unfold execEncQuad
  rw [hpart]
  fin_cases k
  · exact stage_eq_next.2 ⟨_, memWritePort_eq_next.2 ⟨huse 0 (by decide), rfl⟩, rfl⟩
  · exact stage_eq_next.2 ⟨_, memWritePort_eq_next.2 ⟨huse 1 (by decide), rfl⟩, rfl⟩
  · exact stage_eq_next.2 ⟨_, memWritePort_eq_next.2 ⟨huse 2 (by decide), rfl⟩, rfl⟩

@[simp] theorem writeRow_cfg (s : State) (k : Fin 3) : (s.writeRow k).cfg = s.cfg := rfl
@[simp] theorem writeRow_seq (s : State) (k : Fin 3) : (s.writeRow k).seq = { s.seq with part := k + 1 } := rfl
@[simp] theorem rowWord_writeRow (s : State) (k n : Fin 3) : (s.writeRow k).rowWord n = s.rowWord n := rfl

theorem writeRow_zero (s : State) :
    s.writeRow 0 = { s with ports := { s.ports with p0 := s.rowWord 0 }, seq := { s.seq with part := 1 },
                            events := s.events ++ [.dWrite 0 (s.rowWord 0)] } := rfl

theorem writeRow_one (s : State) :
    s.writeRow 1 = { s with ports := { s.ports with p1 := s.rowWord 1 }, seq := { s.seq with part := 2 },
                            events := s.events ++ [.dWrite 1 (s.rowWord 1)] } := rfl

theorem writeRow_two (s : State) :
    s.writeRow 2 = { s with ports := { s.ports with p2 := s.rowWord 2 }, seq := { s.seq with part := 0 },
                            events := s.events ++ [.dWrite 2 (s.rowWord 2)] } := rfl

/-- Between the second write and the third the ports hold a mixture (U17). -/
theorem writeRow_zero_one (s : State) :
    (s.writeRow 0).writeRow 1 =
      { s with ports := { s.ports with p0 := s.rowWord 0, p1 := s.rowWord 1 }, seq := { s.seq with part := 2 },
               events := s.events ++ [.dWrite 0 (s.rowWord 0), .dWrite 1 (s.rowWord 1)] } := by
  rw [writeRow_one, rowWord_writeRow, writeRow_zero]
  simp

/-- After the three writes every port holds the word of its row. -/
theorem writeRow_zero_one_two {s : State} (hpart : s.seq.part = 0) :
    ((s.writeRow 0).writeRow 1).writeRow 2 =
      { s with ports := { s.ports with p0 := s.rowWord 0, p1 := s.rowWord 1, p2 := s.rowWord 2 },
               events := s.events ++ [.dWrite 0 (s.rowWord 0), .dWrite 1 (s.rowWord 1), .dWrite 2 (s.rowWord 2)] } := by
  have hseq : { s.seq with part := 0 } = s.seq := by rw [← hpart]
  rw [writeRow_two, rowWord_writeRow, rowWord_writeRow, writeRow_zero_one]
  simp [hseq]

/-- Settles O32: the three writes in a row. -/
theorem encQuadPacksFourSamples : Obligations.EncQuadPacksFourSamples := fun s hports hpart =>
  ⟨s.writeRow 0, (s.writeRow 0).writeRow 1, s.rowWord 0, s.rowWord 1, s.rowWord 2, exec_encQuad hports hpart,
    writeRow_zero s, exec_encQuad hports (by simp), writeRow_zero_one s,
    writeRow_zero_one_two hpart ▸ exec_encQuad hports (by simp),
    fun _ hb => ⟨portWordOf_getLsbD hb, portWordOf_getLsbD hb, portWordOf_getLsbD hb⟩⟩

end Sys2Proof
end

section
/-! PROOFS. Runs in which only the core moves: what the core issues at each position of a frame (41_frame_scheduler.md R123), and what
each position leads to in such a run. -/

namespace Sys2Proof
open Sys2Proof.Machine

/-! ### Runs of the core alone -/

/-- `s` with the moves `ms` to come (D18; log 5). -/
def Machine.State.withScript (s : State) (ms : List Move) : State := s.setEnv { s.env with script := ms }

/-- `n` moves of the core lead from `s` to `t`, whatever moves come after them. -/
def CoreRun (n : Nat) (s t : State) : Prop :=
  ∀ rest, run n (s.withScript (coreMoves n ++ rest)) = .next (t.withScript rest)

/-- A run of `m + n` steps is a run of `m` and then one of `n`. -/
theorem run_add (m n : Nat) (s : State) : run (m + n) s = andThen (run m s) (run n) := by
  induction m generalizing s with
  | zero => rw [Nat.zero_add]; rfl
  | succ m ih =>
    rw [Nat.add_right_comm]
    change andThen (step s) (run (m + n)) = andThen (andThen (step s) (run m)) (run n)
    cases step s with
    | next u => exact ih u
    | fault f => rfl
    | refused q => rfl

theorem CoreRun.trans {m n : Nat} {s t u : State} (hst : CoreRun m s t) (htu : CoreRun n t u) :
    CoreRun (m + n) s u := by
  intro rest
  have hscript : coreMoves (m + n) ++ rest = coreMoves m ++ (coreMoves n ++ rest) := by
    rw [coreMoves, coreMoves, coreMoves, List.replicate_add, List.append_assoc]
  rw [run_add, hscript, hst]
  exact htu rest

/-- A script that begins with the core's moves runs them. -/
theorem CoreRun.run_eq {n : Nat} {s t : State} {rest : List Move} (h : CoreRun n s t)
    (hscript : s.env.script = coreMoves n ++ rest) : run n s = .next (t.withScript rest) := by
  rw [← h rest, ← hscript]
  rfl

/-- After the reset sequence the core's word decodes to `i`. -/
def Machine.State.issues (s : State) (i : Instr) : Prop :=
  s.seq.fstep ≠ .boot ∧ ∃ sel, s.selector = some sel ∧ decode s.cfg sel = .ok i

theorem configFault_of_ne_boot {s : State} (hboot : s.seq.fstep ≠ .boot) : s.configFault = none := by
  unfold State.configFault
  split
  next hstep _ => exact absurd hstep hboot
  next => rfl

theorem advance_of_ne_boot {s : State} (hboot : s.seq.fstep ≠ .boot) :
    s.advance = s.setSeq (s.seq.after s.cfg.outputMode) := by
  unfold State.advance
  split
  next hstep => exact absurd hstep hboot
  next => rfl

/-- The core's step is the operation it issues; the script takes no part. -/
theorem coreStep_withScript {s u : State} {i : Instr} {ms : List Move} (hissue : s.issues i)
    (hexec : exec i (s.withScript ms) = .next (u.withScript ms)) :
    coreStep (s.withScript ms) =
      .next ((if completes i s then u.setSeq (u.seq.after u.cfg.outputMode) else u).withScript ms) := by
  obtain ⟨hboot, sel, hsel, hdecode⟩ := hissue
  have hstep : u.seq.fstep = s.seq.fstep := (exec_writesAsNamed hexec).position
  rw [coreStep_of_decode (s := s.withScript ms) (configFault_of_ne_boot hboot) hsel hdecode, issue, hexec, andThen_next,
    advance_of_ne_boot (s := u.withScript ms) (hstep ▸ hboot)]
  change Host.Outcome.next (if completes i s then _ else _) = _
  split <;> rfl

/-- A step that completes its operation: the core goes on to the position `q`. -/
theorem CoreRun.complete {s u : State} {i : Instr} {q : Sequencer} (hissue : s.issues i) (hdone : completes i s = true)
    (hexec : ∀ ms, exec i (s.withScript ms) = .next (u.withScript ms)) (hafter : u.seq.after u.cfg.outputMode = q) :
    CoreRun 1 s (u.setSeq q) := by
  intro rest
  have hcore := coreStep_withScript hissue (hexec rest)
  rw [if_pos hdone, hafter] at hcore
  change andThen (coreStep (s.withScript rest)) (run 0) = _
  rw [hcore]
  rfl

/-- A step that leaves HAL operations of its operation to do: the core stays. -/
theorem CoreRun.stay {s u : State} {i : Instr} (hissue : s.issues i) (hdone : completes i s = false)
    (hexec : ∀ ms, exec i (s.withScript ms) = .next (u.withScript ms)) : CoreRun 1 s u := by
  intro rest
  have hcore := coreStep_withScript hissue (hexec rest)
  rw [if_neg (by simp [hdone])] at hcore
  change andThen (coreStep (s.withScript rest)) (run 0) = _
  rw [hcore]
  rfl

/-- The operations of one HAL operation that do not wait are complete when they return. -/
theorem completes_of_format {s : State} {i : Instr} (hformat : i.format ∉ [Format.aph, .cfg, .hal]) :
    completes i s = true := by
  cases i with
  | acqWsel | acqWdisc | acqWlatch | acqEsel | acqEdisc | acqElatchFsel | acqFdisc | acqFlatch | acqNop | encSingle
  | encQuad | tInit | tSetper | tWaitclr | aInit | aSel | aStart | aDone | aRead | aReadblk | dInit | dWrite =>
    simp [Instr.format] at hformat
  | _ => simp [completes, halSteps]

/-! ### What the core issues at each position (R90, R99, R123) -/

section
variable {s : State} {b : BootStep} {ch : Channel} {k : Fin 3}

theorem issues_of_selector {i : Instr} {sel : Selector} (p : FStep) (hseq : s.seq = ⟨p, b, ch, k⟩) (hboot : p ≠ .boot)
    (hsel : s.selector = some sel) (hdecode : decode s.cfg sel = .ok i) : s.issues i :=
  ⟨by rw [hseq]; exact hboot, sel, hsel, hdecode⟩

theorem issues_wait (hseq : s.seq = ⟨.wait, b, ch, k⟩) : s.issues .tWaitclr :=
  issues_of_selector .wait hseq (by decide) (by rw [State.selector, hseq]) rfl

theorem issues_reload (hseq : s.seq = ⟨.reload, b, ch, k⟩) : s.issues (.reload (pidxField s.core.df)) :=
  issues_of_selector .reload hseq (by decide) (by rw [State.selector, hseq]) rfl

theorem issues_synth_quad (hquad : s.cfg.outputMode = .quad) (hseq : s.seq = ⟨.synth, b, ch, k⟩) :
    s.issues ch.generator :=
  issues_of_selector .synth hseq (by decide) (by rw [State.selector, hseq, hquad]) rfl

theorem issues_effect (hseq : s.seq = ⟨.effect, b, ch, k⟩) : s.issues (quantizerOf (levelField s.core.de)) :=
  issues_of_selector .effect hseq (by decide) (by rw [State.selector, hseq]) rfl

theorem issues_encode (hseq : s.seq = ⟨.encode, b, ch, k⟩) : s.issues s.cfg.outputMode.encoder :=
  issues_of_selector .encode hseq (by decide) (by rw [State.selector, hseq]) rfl

theorem issues_acq (hseq : s.seq = ⟨.acq, b, ch, k⟩) : s.issues (acquisitionOf (acqWord s.core.cnt)) :=
  issues_of_selector .acq hseq (by decide) (by rw [State.selector, hseq]) rfl

theorem issues_advance (hseq : s.seq = ⟨.advance, b, ch, k⟩) : s.issues (advanceOf (skipField s.core.cnt)) :=
  issues_of_selector .advance hseq (by decide) (by rw [State.selector, hseq]) rfl

/-! ### `WAIT` and `RELOAD` (R124, R125) -/

/-- With `MATCH` set the core leaves `WAIT`. -/
theorem coreRun_wait (hseq : s.seq = ⟨.wait, b, ch, k⟩) (hmatch : s.timer.matchFlag = true) :
    CoreRun 1 s { s with timer := s.timer.clearMatch, events := s.events ++ [.tWaitclr], seq := ⟨.reload, b, ch, k⟩ } :=
  CoreRun.complete (u := (s.setTimer s.timer.clearMatch).emit .tWaitclr) (issues_wait hseq) hmatch
    (fun _ => if_pos hmatch) (by simp [hseq, Sequencer.after])

theorem coreRun_reload {v : Period} (hseq : s.seq = ⟨.reload, b, ch, k⟩)
    (hv : s.cfg.pt[(pidxField s.core.df).toNat]? = some v) (hne : v ≠ 0) :
    CoreRun 1 s { s with timer := { s.timer with tnxt := v }, events := s.events ++ [.tSetper v],
                         seq := ⟨.synth, b, ch, k⟩ } :=
  CoreRun.complete (u := (s.setTimer { s.timer with tnxt := v }).emit (.tSetper v)) (issues_reload hseq)
    (completes_of_format (by simp [Instr.format])) (fun _ => (memRead_some hv).trans (if_neg hne))
    (by simp [hseq, Sequencer.after])

/-! ### `ADVANCE` (R128, R129) -/

/-- The core registers after a frame's counter operation. -/
def advancedCore (c : CoreRegs) : CoreRegs :=
  { c with cnt := c.cnt + 1, det := if c.cnt.toNat % 128 = 0 then c.det else c.det + 1 }

theorem exec_advanceOf (s : State) :
    exec (advanceOf (skipField s.core.cnt)) s = .next (s.setCore (advancedCore s.core)) := by
  unfold advancedCore
  by_cases hskip : s.core.cnt.toNat % 128 = 0
  · rw [advanceOf, if_pos ((skipField_eq_zero _).2 hskip), if_pos hskip]
    rfl
  · rw [advanceOf_skipField_eq_advInc hskip, exec_advInc, if_neg hskip]

theorem coreRun_advance (hseq : s.seq = ⟨.advance, b, ch, k⟩) :
    CoreRun 1 s { s with core := advancedCore s.core, seq := ⟨.wait, b, ch, k⟩ } :=
  CoreRun.complete (u := s.setCore (advancedCore s.core)) (issues_advance hseq)
    (completes_of_format (by simp [advanceOf_format])) (fun ms => exec_advanceOf (s.withScript ms))
    (by simp [hseq, Sequencer.after])

/-! ### `ACQ` (42 R144 to R152) -/

theorem acquisitionOf_format (w : BitVec 8) : (acquisitionOf w).format = .aph := by
  unfold acquisitionOf
  split
  next => split <;> rfl
  next => rfl

/-- The core registers after a frame's acquisition operation: the dial it latches, and the result it returns. -/
def acquiredCore (s : State) : CoreRegs :=
  { s.core with
    dw := if acqWord s.core.cnt = 0x40 then s.adc.ares else s.core.dw
    de := if acqWord s.core.cnt = 0xA0 then s.adc.ares else s.core.de
    df := if acqWord s.core.cnt = 0xE0 then s.adc.ares else s.core.df
    res := frameResult s }

theorem latched_acquiredCore (s : State) : latched s (acquiredCore s) := ⟨rfl, rfl, rfl⟩

/-- The state after the `ACQ` step of a frame. -/
def Machine.State.acquired (s : State) : State :=
  { s with core := acquiredCore s, adc := frameAdc s, events := s.events ++ frameAcqEvents s,
           seq := { s.seq with fstep := .advance, part := 0 } }

/-- An acquisition word is the word `p` exactly where it selects the operation of `p`. -/
theorem acqWord_eq_iff (c : Counter) {p : BitVec 8} {i : Instr} (hp : acquisitionOf p = i) :
    acqWord c = p ↔ acquisitionOf (acqWord c) = i := by
  rw [← hp, acquisitionOf_injective.eq_iff]

theorem acquiredCore_eq {s : State} {i : Instr} (hop : acquisitionOf (acqWord s.core.cnt) = i) :
    acquiredCore s =
      { s.core with
        dw := if i = .acqWlatch then s.adc.ares else s.core.dw
        de := if i = .acqElatchFsel then s.adc.ares else s.core.de
        df := if i = .acqFlatch then s.adc.ares else s.core.df
        res := frameResult s } := by
  simp only [acquiredCore, acqWord_eq_iff s.core.cnt (p := 0x40) (i := .acqWlatch) rfl,
    acqWord_eq_iff s.core.cnt (p := 0xA0) (i := .acqElatchFsel) rfl,
    acqWord_eq_iff s.core.cnt (p := 0xE0) (i := .acqFlatch) rfl, hop]

/-- The last HAL operation of an acquisition operation that ends with `A.START`. -/
theorem coreRun_acqStart {i : Instr} (hseq : s.seq = ⟨.acq, b, ch, k⟩) (hop : acquisitionOf (acqWord s.core.cnt) = i)
    (hdone : completes i s = true) (hrest : s.adc.abusy = false)
    (hexec : ∀ ms, exec i (s.withScript ms) = stage 0 (startConversion (s.withScript ms))) :
    CoreRun 1 s { s with adc := s.adc.started, events := s.events ++ [.aStart], seq := ⟨.advance, b, ch, 0⟩ } :=
  CoreRun.complete (u := ((s.setAdc s.adc.started).emit .aStart).setPart 0) (hop ▸ issues_acq hseq) hdone
    (fun ms => (hexec ms).trans (stage_eq_next.2 ⟨_, startConversion_eq_next.2 ⟨hrest, rfl⟩, rfl⟩))
    (by simp [hseq, Sequencer.after])

/-- A HAL operation of an acquisition operation that has more of them to come. -/
theorem coreRun_acqPart {u : State} {i : Instr} {n : Fin 3} (hseq : s.seq = ⟨.acq, b, ch, k⟩)
    (hop : acquisitionOf (acqWord s.core.cnt) = i) (hstay : completes i s = false) (hu : u.seq = s.seq)
    (hexec : ∀ ms, exec i (s.withScript ms) = .next ((u.setPart n).withScript ms)) :
    CoreRun 1 s (u.setSeq ⟨.acq, b, ch, n⟩) := by
  have hrun : CoreRun 1 s (u.setPart n) := CoreRun.stay (hop ▸ issues_acq hseq) hstay hexec
  rwa [State.setPart, hu, hseq] at hrun

/-- An operation of two HAL operations that selects and starts. -/
theorem coreRun_selectAndStart {i : Instr} {c : ChannelId} (hseq : s.seq = ⟨.acq, b, ch, 0⟩)
    (hop : acquisitionOf (acqWord s.core.cnt) = i) (hsteps : ∀ t, completes i t = decide (2 ≤ t.seq.part.val + 1))
    (hexec : ∀ t : State, t.cfg = s.cfg → exec i t = selectAndStart c t) (hdial : s.dialChannel c = true)
    (hrest : s.adc.abusy = false) :
    CoreRun 2 s
      { s with adc := (s.adc.selected c).started, events := s.events ++ [.aSel c] ++ [.aStart],
               seq := ⟨.advance, b, ch, 0⟩ } := by
  have hpart : s.seq.part = 0 := by rw [hseq]
  have hselect : CoreRun 1 s (((s.setAdc (s.adc.selected c)).emit (.aSel c)).setSeq ⟨.acq, b, ch, 1⟩) :=
    coreRun_acqPart hseq hop (by simp [hsteps, hpart]) rfl fun ms =>
      (hexec (s.withScript ms) rfl).trans (selectAndStart_eq_next.2 (.inl ⟨hpart, hrest, hdial, rfl⟩))
  exact hselect.trans (coreRun_acqStart rfl hop (hsteps _) hrest fun _ => hexec _ rfl)

/-- An operation of two HAL operations that discards a result and starts. -/
theorem coreRun_discardAndStart {i : Instr} (hseq : s.seq = ⟨.acq, b, ch, 0⟩)
    (hop : acquisitionOf (acqWord s.core.cnt) = i) (hsteps : ∀ t, completes i t = decide (2 ≤ t.seq.part.val + 1))
    (hexec : ∀ t : State, exec i t = discardAndStart t) (hdone : s.adc.adone = true) (hrest : s.adc.abusy = false) :
    CoreRun 2 s
      { s with core := { s.core with res := s.adc.ares }, adc := s.adc.started,
               events := s.events ++ [.aRead s.adc.ares] ++ [.aStart], seq := ⟨.advance, b, ch, 0⟩ } := by
  have hpart : s.seq.part = 0 := by rw [hseq]
  have hread : CoreRun 1 s
      (((s.setCore { s.core with res := s.adc.ares }).emit (.aRead s.adc.ares)).setSeq ⟨.acq, b, ch, 1⟩) :=
    coreRun_acqPart hseq hop (by simp [hsteps, hpart]) rfl fun ms =>
      (hexec (s.withScript ms)).trans (discardAndStart_eq_next.2 (.inl ⟨hpart, hdone, rfl⟩))
  exact hread.trans (coreRun_acqStart rfl hop (hsteps _) hrest fun _ => hexec _)

/-- `ACQ.ELATCH_FSEL`: the read latched in `DE`, the selection and the start. -/
theorem coreRun_acqElatchFsel (hseq : s.seq = ⟨.acq, b, ch, 0⟩)
    (hop : acquisitionOf (acqWord s.core.cnt) = .acqElatchFsel) (hdone : s.adc.adone = true)
    (hrest : s.adc.abusy = false) :
    CoreRun 3 s
      { s with core := { s.core with de := s.adc.ares, res := s.adc.ares }, adc := (s.adc.selected s.cfg.chF).started,
               events := s.events ++ [.aRead s.adc.ares] ++ [.aSel s.cfg.chF] ++ [.aStart],
               seq := ⟨.advance, b, ch, 0⟩ } := by
  have hpart : s.seq.part = 0 := by rw [hseq]
  let r : State := ((s.setCore { s.core with de := s.adc.ares, res := s.adc.ares }).emit (.aRead s.adc.ares)).setSeq
    ⟨.acq, b, ch, 1⟩
  have hread : CoreRun 1 s r :=
    coreRun_acqPart hseq hop (by simp [completes, halSteps, hpart]) rfl fun ms => by
      change execAcqElatchFsel (s.withScript ms) = _
      unfold execAcqElatchFsel
      rw [show (s.withScript ms).seq.part = 0 from hpart]
      exact stage_eq_next.2 ⟨_, andThen_eq_next.2 ⟨_, readResult_eq_next.2 ⟨hdone, rfl⟩, rfl⟩, rfl⟩
  have hselect : CoreRun 1 r (((r.setAdc (r.adc.selected s.cfg.chF)).emit (.aSel s.cfg.chF)).setSeq ⟨.acq, b, ch, 2⟩) :=
    coreRun_acqPart rfl hop rfl rfl fun ms =>
      stage_eq_next.2 ⟨_, selectChannel_eq_next.2 ⟨hrest, dialChannel_of_dial (.inr (.inr rfl)), rfl⟩, rfl⟩
  exact (hread.trans hselect).trans (coreRun_acqStart rfl hop rfl hrest fun _ => rfl)

/-- An acquisition operation of one HAL operation. -/
theorem coreRun_acqSingle {i : Instr} {u : State} (hseq : s.seq = ⟨.acq, b, ch, 0⟩)
    (hop : acquisitionOf (acqWord s.core.cnt) = i) (hstep : completes i s = true) (hu : u.seq = s.seq)
    (hexec : ∀ ms, exec i (s.withScript ms) = .next (u.withScript ms)) :
    CoreRun 1 s { u with seq := ⟨.advance, b, ch, 0⟩ } :=
  CoreRun.complete (hop ▸ issues_acq hseq) hstep hexec (by simp [hu, hseq, Sequencer.after])

/-- An operation of one HAL operation that reads the result and latches it. -/
theorem coreRun_acqLatch {i : Instr} (latch : CoreRegs → CoreRegs) (hseq : s.seq = ⟨.acq, b, ch, 0⟩)
    (hop : acquisitionOf (acqWord s.core.cnt) = i) (hstep : completes i s = true)
    (hexec : ∀ t, exec i t = andThen (readResult t) fun u => .next (u.setCore (latch u.core)))
    (hdone : s.adc.adone = true) :
    CoreRun 1 s
      { s with core := latch { s.core with res := s.adc.ares }, events := s.events ++ [.aRead s.adc.ares],
               seq := ⟨.advance, b, ch, 0⟩ } :=
  coreRun_acqSingle (u := (s.setCore (latch { s.core with res := s.adc.ares })).emit (.aRead s.adc.ares)) hseq hop hstep
    rfl fun ms => (hexec (s.withScript ms)).trans (andThen_eq_next.2 ⟨_, readResult_eq_next.2 ⟨hdone, rfl⟩, rfl⟩)

/-- Where the ADC is ready for it, the `ACQ` step of a frame runs its operation to the end. -/
theorem coreRun_acq (hseq : s.seq = ⟨.acq, b, ch, 0⟩) (hready : adcReady s) :
    CoreRun (halSteps (acquisitionOf (acqWord s.core.cnt))) s s.acquired := by
  have hW : s.dialChannel s.cfg.chW = true := dialChannel_of_dial (.inl rfl)
  have hE : s.dialChannel s.cfg.chE = true := dialChannel_of_dial (.inr (.inl rfl))
  unfold adcReady at hready
  generalize hop : acquisitionOf (acqWord s.core.cnt) = i at hready
  simp only [State.acquired, acquiredCore_eq hop, frameAdc, frameAcqEvents, frameResult, readingWord, hop, hseq]
  cases i with
  | acqWsel =>
    simpa [halSteps, Adc.selected, Adc.started] using
      coreRun_selectAndStart hseq hop (fun _ => rfl) (fun t ht => ht ▸ rfl) hW hready
  | acqEsel =>
    simpa [halSteps, Adc.selected, Adc.started] using
      coreRun_selectAndStart hseq hop (fun _ => rfl) (fun t ht => ht ▸ rfl) hE hready
  | acqWdisc | acqEdisc | acqFdisc =>
    simpa [halSteps, Adc.started] using
      coreRun_discardAndStart hseq hop (fun _ => rfl) (fun _ => rfl) hready.1 hready.2
  | acqElatchFsel =>
    simpa [halSteps, Adc.selected, Adc.started] using coreRun_acqElatchFsel hseq hop hready.1 hready.2
  | acqWlatch =>
    simpa [halSteps] using coreRun_acqLatch (fun c => { c with dw := c.res }) hseq hop
      (by simp [completes, halSteps]) (fun _ => rfl) hready.1
  | acqFlatch =>
    simpa [halSteps] using coreRun_acqLatch (fun c => { c with df := c.res }) hseq hop
      (by simp [completes, halSteps]) (fun _ => rfl) hready.1
  | acqNop band off =>
    simpa [halSteps] using coreRun_acqSingle (u := s) hseq hop (by simp [completes, halSteps]) rfl
      fun ms => exec_acqNop band off (s.withScript ms)
  | _ => exact absurd (acquisitionOf_format (acqWord s.core.cnt)) (by simp [hop, Instr.format])

end

end Sys2Proof
end

section
/-! PROOFS. A frame of `QUAD` mode: the generators as the function `generated` (43 R172 to R190), the four samples and their quantizers,
the three port writes, and the statement O60. -/

namespace Sys2Proof
open Sys2Proof.Machine

/-! ### A generator as a function (43 R172 to R181) -/

/-- The core registers after a variant's generator. -/
def generatorCore (s : State) (v : Variant) : CoreRegs :=
  match v with
  | .triangle => { s.core with tri := triNext (directionBit s.core.cnt) s.core.tri }
  | .noise => { s.core with rng := xorShift s.cfg.xsA s.cfg.xsB s.cfg.xsC s.core.rng }
  | _ => s.core

/-- Where `generated` gives a sample, the generator puts it. -/
theorem exec_generator {s : State} {v : Variant} {g : Sample} (hg : generated s v = some g) :
    exec v.generator s = .next ((s.setCore (generatorCore s v)).putSample g) := by
  cases v with
  | sine =>
    obtain ⟨e, he, rfl⟩ := Option.map_eq_some_iff.1 hg
    exact memRead_some he
  | triangle | pulse | saw | superSaw | clippedSaw | clippedSuperSaw | noise => cases hg; rfl

/-- Under good parameters every variant has a sample. -/
theorem exists_generated {s : State} (hgood : GoodConfig s) (v : Variant) : ∃ g, generated s v = some g := by
  cases v with
  | sine =>
    have hindex := Nat.mod_lt s.core.cnt.toNat (Config.good_sineLen hgood)
    exact ⟨_, Option.map_eq_some_iff.2 ⟨_, List.getElem?_eq_getElem hindex, rfl⟩⟩
  | _ => exact ⟨_, rfl⟩

/-- The period table has an entry for every value of `DF`, and none is 0 (20 R64). -/
theorem exists_period {cfg : Config} (hgood : cfg.good = true) (df : Dial) :
    ∃ v, cfg.pt[(pidxField df).toNat]? = some v ∧ v ≠ 0 := by
  obtain ⟨hlen, hne⟩ := Config.good_periodTable hgood
  have hindex : (pidxField df).toNat < cfg.pt.length := hlen ▸ (pidxField df).isLt
  exact ⟨_, List.getElem?_eq_getElem hindex, hne _ (List.getElem_mem hindex)⟩

/-! ### The sample of a channel (43 R190) -/

/-- The variant that a channel's generator computes. -/
def Channel.variant : Channel → Variant
  | .sine => .sine
  | .tri => .triangle
  | .saw => .saw
  | .pulse => .pulse

theorem Channel.variant_generator (ch : Channel) : ch.variant.generator = ch.generator := by
  cases ch <;> rfl

/-- The samples with that of one channel replaced. -/
def Machine.Samples.put (x : Samples) (ch : Channel) (v : Sample) : Samples :=
  match ch with
  | .sine => { x with sine := v }
  | .tri => { x with tri := v }
  | .saw => { x with saw := v }
  | .pulse => { x with pulse := v }

theorem putSample_quad {s : State} {ch : Channel} (hquad : s.cfg.outputMode = .quad) (hchan : s.seq.chan = ch)
    (v : Sample) : s.putSample v = s.setSamples (s.samples.put ch v) := by
  unfold State.putSample Samples.put
  rw [hquad, hchan]
  cases ch <;> rfl

theorem sample_quad {s : State} {ch : Channel} (hquad : s.cfg.outputMode = .quad) (hchan : s.seq.chan = ch) :
    s.sample = s.samples.ofChannel ch := by
  unfold State.sample
  rw [hquad, hchan]
  cases ch <;> rfl

/-! ### `SYNTH`, `EFFECT` and `ENCODE` in `QUAD` mode -/

section
variable {s : State} {b : BootStep} {ch : Channel} {k : Fin 3}

/-- One channel of `SYNTH`. -/
theorem coreRun_synth_channel {g : Sample} (hquad : s.cfg.outputMode = .quad) (hseq : s.seq = ⟨.synth, b, ch, k⟩)
    (hg : generated s ch.variant = some g) :
    CoreRun 1 s { s with core := generatorCore s ch.variant, samples := s.samples.put ch g,
                         seq := Sequencer.after .quad ⟨.synth, b, ch, k⟩ } := by
  refine CoreRun.complete (u := (s.setCore (generatorCore s ch.variant)).setSamples (s.samples.put ch g))
    (issues_synth_quad hquad hseq) (completes_of_format (by simp [Channel.generator_format])) (fun ms => ?_)
    (by simp [hseq, hquad])
  have hchan : s.seq.chan = ch := by rw [hseq]
  rw [← Channel.variant_generator, exec_generator (s := s.withScript ms) hg]
  exact congrArg Host.Outcome.next
    (putSample_quad (s := (s.withScript ms).setCore (generatorCore s ch.variant)) hquad hchan g)

/-- One channel of `EFFECT`. -/
theorem coreRun_effect_channel {q : Sample} (hquad : s.cfg.outputMode = .quad) (hseq : s.seq = ⟨.effect, b, ch, k⟩)
    (hq : quantized s.cfg s.core.de (s.samples.ofChannel ch) = some q) :
    CoreRun 1 s { s with samples := s.samples.put ch q, seq := Sequencer.after .quad ⟨.effect, b, ch, k⟩ } := by
  refine CoreRun.complete (u := s.setSamples (s.samples.put ch q)) (issues_effect hseq)
    (completes_of_format (by simp [quantizerOf_format])) (fun ms => ?_) (by simp [hseq, hquad])
  have hchan : s.seq.chan = ch := by rw [hseq]
  have hsample : (s.withScript ms).sample = s.samples.ofChannel ch := sample_quad hquad hchan
  exact exec_quantizerOf_eq_next.2 ⟨q, hsample ▸ hq, (putSample_quad (s := s.withScript ms) hquad hchan q).symm⟩

/-- The four samples of a frame. Only `TRI` writes a core register. -/
theorem coreRun_synth_quad {x : Samples} (hquad : s.cfg.outputMode = .quad) (hseq : s.seq = ⟨.synth, b, .sine, k⟩)
    (hmono : x.mono = s.samples.mono) (hsine : generated s .sine = some x.sine)
    (htri : generated s .triangle = some x.tri) (hsaw : generated s .saw = some x.saw)
    (hpulse : generated s .pulse = some x.pulse) :
    CoreRun 4 s { s with core := generatorCore s .triangle, samples := x, seq := ⟨.effect, b, .sine, k⟩ } := by
  obtain ⟨mono, sine, tri, saw, pulse⟩ := x
  obtain rfl : mono = s.samples.mono := hmono
  exact (((coreRun_synth_channel hquad hseq hsine).trans (coreRun_synth_channel hquad rfl htri)).trans
    (coreRun_synth_channel hquad rfl hsaw)).trans (coreRun_synth_channel hquad rfl hpulse)

/-- The four samples of a frame, quantized. -/
theorem coreRun_effect_quad {x : Samples} (hquad : s.cfg.outputMode = .quad) (hseq : s.seq = ⟨.effect, b, .sine, k⟩)
    (hmono : x.mono = s.samples.mono) (hsine : quantized s.cfg s.core.de s.samples.sine = some x.sine)
    (htri : quantized s.cfg s.core.de s.samples.tri = some x.tri)
    (hsaw : quantized s.cfg s.core.de s.samples.saw = some x.saw)
    (hpulse : quantized s.cfg s.core.de s.samples.pulse = some x.pulse) :
    CoreRun 4 s { s with samples := x, seq := ⟨.encode, b, .sine, k⟩ } := by
  obtain ⟨mono, sine, tri, saw, pulse⟩ := x
  obtain rfl : mono = s.samples.mono := hmono
  exact (((coreRun_effect_channel hquad hseq hsine).trans (coreRun_effect_channel hquad rfl htri)).trans
    (coreRun_effect_channel hquad rfl hsaw)).trans (coreRun_effect_channel hquad rfl hpulse)

theorem issues_encode_quad (hquad : s.cfg.outputMode = .quad) (hseq : s.seq = ⟨.encode, b, ch, k⟩) :
    s.issues .encQuad := by
  have hencoder := issues_encode hseq
  rwa [hquad] at hencoder

/-- A port write with another one to come. -/
theorem coreRun_writeRow (hquad : s.cfg.outputMode = .quad) (hports : 3 ≤ s.cfg.nPorts)
    (hseq : s.seq = ⟨.encode, b, ch, k⟩) (hk : k.val < 2) : CoreRun 1 s (s.writeRow k) := by
  have hmore : ¬3 ≤ s.seq.part.val + 1 := by
    rw [hseq]
    exact Nat.not_le.2 (Nat.succ_lt_succ hk)
  exact CoreRun.stay (issues_encode_quad hquad hseq) (decide_eq_false hmore) fun ms =>
    exec_encQuad (s := s.withScript ms) hports (congrArg Sequencer.part hseq)

/-- The last port write. -/
theorem coreRun_writeRow_last (hquad : s.cfg.outputMode = .quad) (hports : 3 ≤ s.cfg.nPorts)
    (hseq : s.seq = ⟨.encode, b, ch, 2⟩) : CoreRun 1 s ((s.writeRow 2).setSeq ⟨.acq, b, ch, 0⟩) :=
  CoreRun.complete (issues_encode_quad hquad hseq) (by simp [completes, halSteps, hseq])
    (fun ms => exec_encQuad (s := s.withScript ms) hports (congrArg Sequencer.part hseq))
    (by simp [hseq, Sequencer.after])

/-- The three port writes of a frame (R222). -/
theorem coreRun_encode_quad (hquad : s.cfg.outputMode = .quad) (hports : 3 ≤ s.cfg.nPorts)
    (hseq : s.seq = ⟨.encode, b, ch, 0⟩) :
    CoreRun 3 s
      { s with ports := { s.ports with p0 := s.rowWord 0, p1 := s.rowWord 1, p2 := s.rowWord 2 },
               events := s.events ++ [.dWrite 0 (s.rowWord 0), .dWrite 1 (s.rowWord 1), .dWrite 2 (s.rowWord 2)],
               seq := ⟨.acq, b, ch, 0⟩ } := by
  have hstart := coreRun_writeRow hquad hports hseq (by decide)
  have hmiddle : CoreRun 1 (s.writeRow 0) ((s.writeRow 0).writeRow 1) :=
    coreRun_writeRow (b := b) (ch := ch) (by simpa) (by simpa) (by simp [hseq]) (by decide)
  have hlast : CoreRun 1 ((s.writeRow 0).writeRow 1)
      ((((s.writeRow 0).writeRow 1).writeRow 2).setSeq ⟨.acq, b, ch, 0⟩) :=
    coreRun_writeRow_last (by simpa) (by simpa) (by simp [hseq])
  rw [writeRow_zero_one_two (congrArg Sequencer.part hseq)] at hlast
  exact (hstart.trans hmiddle).trans hlast

end

/-! ### The frame -/

/-- `x` holds the four samples of the frame that begins in `s`, generated and quantized (43 R190, 44 R216). -/
structure QuadSamples (s : State) (x : Samples) : Prop where
  mono  : x.mono = s.samples.mono
  sine  : (generated s .sine).bind (quantized s.cfg s.core.de) = some x.sine
  tri   : (generated s .triangle).bind (quantized s.cfg s.core.de) = some x.tri
  saw   : (generated s .saw).bind (quantized s.cfg s.core.de) = some x.saw
  pulse : (generated s .pulse).bind (quantized s.cfg s.core.de) = some x.pulse

/-- Under good parameters a frame has its four samples. -/
theorem exists_quadSamples {s : State} (hgood : GoodConfig s) : ∃ x, QuadSamples s x := by
  have hsample (v : Variant) : ∃ q, (generated s v).bind (quantized s.cfg s.core.de) = some q := by
    obtain ⟨g, hg⟩ := exists_generated hgood v
    obtain ⟨q, hq⟩ := exists_quantized hgood s.core.de g
    exact ⟨q, Option.bind_eq_some_iff.2 ⟨g, hg, hq⟩⟩
  obtain ⟨sine, hsine⟩ := hsample .sine
  obtain ⟨tri, htri⟩ := hsample .triangle
  obtain ⟨saw, hsaw⟩ := hsample .saw
  obtain ⟨pulse, hpulse⟩ := hsample .pulse
  exact ⟨⟨s.samples.mono, sine, tri, saw, pulse⟩, rfl, hsine, htri, hsaw, hpulse⟩

/-- `SYNTH` and `EFFECT`: the four samples are the frame's. -/
theorem coreRun_quadSamples {s : State} {x : Samples} {b : BootStep} {k : Fin 3} (hquad : s.cfg.outputMode = .quad)
    (hseq : s.seq = ⟨.synth, b, .sine, k⟩) (hx : QuadSamples s x) :
    CoreRun 8 s { s with core := generatorCore s .triangle, samples := x, seq := ⟨.encode, b, .sine, k⟩ } := by
  obtain ⟨gsine, hgsine, hqsine⟩ := Option.bind_eq_some_iff.1 hx.sine
  obtain ⟨gtri, hgtri, hqtri⟩ := Option.bind_eq_some_iff.1 hx.tri
  obtain ⟨gsaw, hgsaw, hqsaw⟩ := Option.bind_eq_some_iff.1 hx.saw
  obtain ⟨gpulse, hgpulse, hqpulse⟩ := Option.bind_eq_some_iff.1 hx.pulse
  have hsynth := coreRun_synth_quad (x := ⟨s.samples.mono, gsine, gtri, gsaw, gpulse⟩) hquad hseq rfl hgsine hgtri
    hgsaw hgpulse
  exact hsynth.trans (coreRun_effect_quad hquad rfl hx.mono hqsine hqtri hqsaw hqpulse)

/-- The state of a `QUAD` frame on entry to `ACQ`: the period `v` is programmed and the samples `x` are on the ports. -/
def Machine.State.quadEncoded (s : State) (v : Period) (x : Samples) : State :=
  { s with
    core := generatorCore s .triangle
    samples := x
    timer := { s.timer with matchFlag := false, tnxt := v }
    ports := { s.ports with p0 := quadWord s.cfg.quadPinmap.p0 x, p1 := quadWord s.cfg.quadPinmap.p1 x,
                            p2 := quadWord s.cfg.quadPinmap.p2 x }
    events := s.events ++ [.tWaitclr, .tSetper v, .dWrite 0 (quadWord s.cfg.quadPinmap.p0 x),
      .dWrite 1 (quadWord s.cfg.quadPinmap.p1 x), .dWrite 2 (quadWord s.cfg.quadPinmap.p2 x)]
    seq := ⟨.acq, s.seq.boot, .sine, 0⟩ }

/-- A frame of `QUAD` mode up to its `ACQ` step. -/
theorem coreRun_quadEncoded {s : State} {v : Period} {x : Samples} (hquad : s.cfg.outputMode = .quad)
    (hports : 3 ≤ s.cfg.nPorts) (hseq : s.seq = ⟨.wait, s.seq.boot, .sine, 0⟩) (hmatch : s.timer.matchFlag = true)
    (hv : s.cfg.pt[(pidxField s.core.df).toNat]? = some v) (hne : v ≠ 0) (hx : QuadSamples s x) :
    CoreRun 13 s (s.quadEncoded v x) := by
  have hbegin := (coreRun_wait hseq hmatch).trans (coreRun_reload rfl hv hne)
  have hsamples := hbegin.trans (coreRun_quadSamples hquad rfl ⟨hx.mono, hx.sine, hx.tri, hx.saw, hx.pulse⟩)
  have hencode := hsamples.trans (coreRun_encode_quad hquad hports rfl)
  convert hencode using 1
  simp [State.quadEncoded, State.rowWord, QuadPinmap.row, Timer.clearMatch, generatorCore]

/-! ### The statement -/

/-- Settles O60: the positions of the frame in a row. -/
theorem quadFramePacksFourSamples : Obligations.QuadFramePacksFourSamples := by
  intro s rest hgood hquad hstep hpart hchan hmatch hready hscript
  have hseq : s.seq = ⟨.wait, s.seq.boot, .sine, 0⟩ := by rw [← hstep, ← hpart, ← hchan]
  have hports : s.cfg.nPorts = 3 := by simpa [Config.meets, hquad] using Config.good_meets hgood .nPorts
  obtain ⟨v, hv, hne⟩ := exists_period hgood s.core.df
  obtain ⟨x, hx⟩ := exists_quadSamples hgood
  have hencoded := coreRun_quadEncoded hquad hports.ge hseq hmatch hv hne hx
  have hsteps : 13 + halSteps (acquisitionOf (acqWord s.core.cnt)) + 1 = frameSteps s + 8 := by
    rw [frameSteps, hquad]
    change _ = 3 + 3 + _ + 8
    omega
  have hframe := (hencoded.trans (coreRun_acq rfl hready)).trans (coreRun_advance rfl)
  rw [← hsteps] at hscript ⊢
  exact ⟨_, v, x, hframe.run_eq hscript, pidxField_toNat s.core.df ▸ hv, hx.sine, hx.tri, hx.saw, hx.pulse, hx.mono,
    rfl, rfl, rfl, rfl, rfl, rfl, rfl, rfl, latched_acquiredCore s, rfl, rfl, rfl, hseq.symm, rfl, rfl⟩

end Sys2Proof
end

section
/-! PROOFS. The ADC operations of the HAL (46_hal_operations.md): what a write of the ADC and its event leave alone, `A.START` as a start
of a conversion, and the statement O43. -/

namespace Sys2Proof
open Sys2Proof.Machine

/-- A write of the ADC and one event leave all else alone. -/
theorem keepsAllButAdc_emit_setAdc (s : State) (a : Adc) (e : Event) : keepsAllButAdc s ((s.setAdc a).emit e) :=
  ⟨⟨rfl, rfl⟩, ⟨rfl, rfl⟩, ⟨rfl, rfl⟩, rfl, rfl, rfl, rfl, rfl⟩

/-- The core operation `A.START` is the ADC's start of a conversion and nothing more. -/
theorem exec_aStart (s : State) : exec .aStart s = startConversion s := rfl

/-- Settles O43: `A.START` faults with a conversion in flight, and with the ADC at rest it starts one and emits its event. -/
theorem startBeginsConversion : Obligations.StartBeginsConversion := by
  intro s
  rw [exec_aStart]
  constructor
  · intro hbusy
    exact startConversion_eq_fault.2 ⟨hbusy, rfl⟩
  · intro hrest
    exact ⟨_, startConversion_eq_next.2 ⟨hrest, rfl⟩, rfl, rfl, rfl, keepsAllButAdc_emit_setAdc s _ _⟩

end Sys2Proof
end

section
/-! PROOFS. The encoder and the decoder undo each other (30_encoding.md): variants and their codes, the fields of an encoded word, the
words of HAL operations, and the statements O3, O4 and O5. -/

namespace Sys2Proof

/-! ### Variants and their codes (R92, D1) -/

/-- The variants in the order of their codes. -/
def VariantCode.variants (m : VariantCode) : List Variant := [m.c0, m.c1, m.c2, m.c3, m.c4, m.c5, m.c6, m.c7]

theorem VariantCode.variants_getElem? (m : VariantCode) (code : BitVec 3) :
    m.variants[code.toNat]? = some (m.variantOf code) := by
  unfold variantOf variants
  have hlt : code.toNat < 8 := code.isLt
  interval_cases code.toNat <;> rfl

theorem VariantCode.variants_nodup {m : VariantCode} (h : m.bijective = true) : m.variants.Nodup :=
  of_decide_eq_true h

/-- Different codes select different variants. -/
theorem VariantCode.variantOf_injective {m : VariantCode} (h : m.bijective = true) : Function.Injective m.variantOf := by
  intro c d hcd
  have hget : m.variants[c.toNat]? = m.variants[d.toNat]? := by rw [variants_getElem?, variants_getElem?, hcd]
  exact BitVec.eq_of_toNat_eq ((List.getElem?_inj c.isLt (variants_nodup h)).1 hget)

/-- Eight different variants are all there are. -/
theorem VariantCode.mem_variants {m : VariantCode} (h : m.bijective = true) (v : Variant) : v ∈ m.variants := by
  have hall : ∀ w : Variant, w ∈ defaultVariantCode.variants := by intro w; cases w <;> decide
  have hperm : m.variants.Perm defaultVariantCode.variants :=
    ((variants_nodup h).subperm fun w _ => hall w).perm_of_length_le (by rfl)
  exact hperm.mem_iff.2 (hall v)

/-- The code that the encoder finds selects the variant. -/
theorem VariantCode.variantOf_of_codeOf {m : VariantCode} {v : Variant} {code : BitVec 3}
    (h : m.codeOf v = some code) : m.variantOf code = v := by
  unfold codeOf at h
  split_ifs at h
  all_goals obtain rfl := Option.some.inj h; assumption

/-- Under an admissible `VARIANT_CODE` every variant has a code. -/
theorem VariantCode.exists_codeOf {m : VariantCode} (h : m.bijective = true) (v : Variant) :
    ∃ code, m.codeOf v = some code := by
  have hmem := mem_variants h v
  simp only [variants, List.mem_cons, List.not_mem_nil, or_false] at hmem
  by_contra hnone
  rw [← Option.ne_none_iff_exists', not_not, codeOf] at hnone
  split_ifs at hnone
  obtain h | h | h | h | h | h | h | h := hmem <;> exact absurd h.symm (by assumption)

theorem VariantCode.codeOf_variantOf {m : VariantCode} (h : m.bijective = true) (code : BitVec 3) :
    m.codeOf (m.variantOf code) = some code := by
  obtain ⟨c, hc⟩ := exists_codeOf h (m.variantOf code)
  rw [hc, variantOf_injective h (variantOf_of_codeOf hc)]

/-! ### The fields of an encoded word (R91) -/

@[simp] theorem variantField_append (code : BitVec 3) (low : BitVec 7) : variantField (code ++ low) = code :=
  BitVec.extractLsb'_append_eq_left

@[simp] theorem pidxField_append (pidx : BitVec 9) (low : BitVec 1) : pidxField (pidx ++ low) = pidx :=
  BitVec.extractLsb'_append_eq_left

@[simp] theorem bandField_append (band : BitVec 3) (off : BitVec 5) : bandField (band ++ off) = band :=
  BitVec.extractLsb'_append_eq_left

@[simp] theorem offField_append (band : BitVec 3) (off : BitVec 5) : offField (band ++ off) = off :=
  BitVec.extractLsb'_append_eq_right

@[simp] theorem halCodeField_halWord (code : BitVec 4) (operand : BitVec 16) :
    halCodeField (halWord code operand) = code :=
  BitVec.extractLsb'_append_eq_right

@[simp] theorem halOperandField_halWord (code : BitVec 4) (operand : BitVec 16) :
    halOperandField (halWord code operand) = operand :=
  BitVec.extractLsb'_append_eq_left

/-- A word is its upper bits and its lower bits. -/
theorem append_extractLsb' {n k : Nat} (w : BitVec (k + n)) : w.extractLsb' n k ++ w.extractLsb' 0 n = w := by
  ext i hi
  rw [BitVec.getElem_append]
  split <;> simp <;> grind

/-- A HAL word is its number and its operand. -/
theorem halWord_fields (w : BitVec 20) : halWord (halCodeField w) (halOperandField w) = w :=
  append_extractLsb' (n := 4) (k := 16) w

/-- Clearing the lower bits of a word keeps its upper bits. -/
theorem extractLsb'_append_zero {n k : Nat} (w : BitVec (k + n)) :
    w.extractLsb' n k ++ 0#n = w &&& (BitVec.allOnes k ++ 0#n) := by
  ext i hi
  rw [BitVec.getElem_and, BitVec.getElem_append, BitVec.getElem_append]
  split
  next => simp
  next hge => simp [Nat.add_sub_cancel' (Nat.le_of_not_lt hge), BitVec.getLsbD_eq_getElem hi]

/-- The lower bits of a word are their own upper bits and lower bits. -/
theorem append_extractLsb'_low {n m k : Nat} (w : BitVec (k + (m + n))) :
    w.extractLsb' n m ++ w.extractLsb' 0 n = w.extractLsb' 0 (m + n) := by
  ext i hi
  rw [BitVec.getElem_append]
  split <;> simp
  grind

theorem extractLsb'_append_append_mid {n m k : Nat} (x : BitVec k) (y : BitVec m) (z : BitVec n) :
    (x ++ (y ++ z)).extractLsb' n m = y := by
  ext i hi
  simp [BitVec.getLsbD_append, hi]
  omega

theorem extractLsb'_append_append_low {n m k : Nat} (x : BitVec k) (y : BitVec m) (z : BitVec n) :
    (x ++ (y ++ z)).extractLsb' 0 n = z := by
  ext i hi
  simp [BitVec.getLsbD_append, hi]
  omega

theorem setWidth_eq_zero_append {n k : Nat} (x : BitVec n) : x.setWidth (k + n) = 0#k ++ x := by
  ext i hi
  rw [BitVec.getElem_append]
  split <;> simp <;> grind

theorem variantField_append_zero (w : Dial) : variantField w ++ 0#7 = w &&& 0x380#10 :=
  extractLsb'_append_zero (n := 7) (k := 3) w

theorem levelWord_levelField (w : Dial) : levelWord (levelField w) = w &&& 0x300#10 :=
  extractLsb'_append_zero (n := 8) (k := 2) w

theorem pidxField_append_zero (w : Dial) : pidxField w ++ 0#1 = w &&& 0x3FE#10 :=
  extractLsb'_append_zero (n := 1) (k := 9) w

/-! ### HAL operations (R100; log 15) -/

theorem halPlain_eq_ok {code : BitVec 4} {operand : BitVec 16} {i j : Instr} :
    halPlain code operand i = .ok j ↔ operand = 0 ∧ i = j := by
  unfold halPlain
  split
  next hzero => simp [hzero]
  next hzero => exact iff_of_false (by simp) fun h => hzero h.1

theorem halSelect_eq_ok {code : BitVec 4} {operand : BitVec 16} {i : Instr} :
    halSelect code operand = .ok i ↔ ∃ ch : ChannelId, operand = ch.setWidth 16 ∧ .aSel ch = i := by
  have hwidth (ch : ChannelId) : ch.setWidth 16 = 0#12 ++ ch := setWidth_eq_zero_append (k := 12) ch
  unfold halSelect
  constructor
  · intro h
    split at h
    next hhigh =>
      have hparts := append_extractLsb' (n := 4) (k := 12) operand
      rw [hhigh] at hparts
      exact ⟨_, by rw [hwidth]; exact hparts.symm, Except.ok.inj h⟩
    next => cases h
  · rintro ⟨ch, rfl, rfl⟩
    rw [hwidth, BitVec.extractLsb'_append_eq_left, BitVec.extractLsb'_append_eq_right]
    rfl

theorem halWrite_eq_ok {code : BitVec 4} {operand : BitVec 16} {i : Instr} :
    halWrite code operand = .ok i ↔
      ∃ (p : PortId) (v : PortWord), p ≠ 3 ∧ operand = (p ++ v).setWidth 16 ∧ .dWrite p v = i := by
  have hwidth (p : PortId) (v : PortWord) : (p ++ v).setWidth 16 = 0#6 ++ (p ++ v) :=
    setWidth_eq_zero_append (k := 6) (p ++ v)
  unfold halWrite
  constructor
  · intro h
    split at h
    next hok =>
      obtain ⟨hhigh, hport⟩ := hok
      have hparts := append_extractLsb' (n := 10) (k := 6) operand
      rw [hhigh, ← append_extractLsb'_low (n := 8) (m := 2) (k := 6) operand] at hparts
      exact ⟨_, _, hport, by rw [hwidth]; exact hparts.symm, Except.ok.inj h⟩
    next => cases h
  · rintro ⟨p, v, hport, rfl, rfl⟩
    rw [hwidth]
    have hhigh : (0#6 ++ (p ++ v)).extractLsb' 10 6 = 0 := BitVec.extractLsb'_append_eq_left
    have hmid : (0#6 ++ (p ++ v)).extractLsb' 8 2 = p := extractLsb'_append_append_mid 0#6 p v
    have hlow : (0#6 ++ (p ++ v)).extractLsb' 0 8 = v := extractLsb'_append_append_low 0#6 p v
    rw [hhigh, hmid, hlow, if_pos ⟨rfl, hport⟩]

theorem halWord_of_fields {w : BitVec 20} {code : BitVec 4} {operand : BitVec 16}
    (hcode : (halCodeField w).toNat = code.toNat) (hoperand : halOperandField w = operand) : halWord code operand = w := by
  rw [← BitVec.eq_of_toNat_eq hcode, ← hoperand, halWord_fields]

/-- A HAL word that decodes is the word of a well-formed HAL operation. -/
theorem encode_decodeHal (cfg : Config) {w : BitVec 20} {i : Instr} (h : decodeHal w = .ok i) :
    i.wf = true ∧ encode cfg i = .hal w := by
  unfold decodeHal at h
  split at h
  case h_2 hcode =>
    cases h
    exact ⟨rfl, congrArg Selector.hal (halWord_of_fields hcode rfl)⟩
  case h_5 hcode =>
    obtain ⟨ch, hoperand, rfl⟩ := halSelect_eq_ok.1 h
    exact ⟨rfl, congrArg Selector.hal (halWord_of_fields hcode hoperand)⟩
  case h_11 hcode =>
    obtain ⟨p, v, hport, hoperand, rfl⟩ := halWrite_eq_ok.1 h
    exact ⟨by simpa [Instr.wf] using hport, congrArg Selector.hal (halWord_of_fields hcode hoperand)⟩
  case h_12 => cases h
  all_goals
    next hcode =>
      obtain ⟨hoperand, rfl⟩ := halPlain_eq_ok.1 h
      exact ⟨rfl, congrArg Selector.hal (halWord_of_fields hcode hoperand)⟩

/-- A well-formed HAL operation is read back from its word, whatever the parameters. -/
theorem decode_encode_hal (cfg : Config) {i : Instr} (hformat : i.format = .hal) (hwf : i.wf = true) :
    decode cfg (encode cfg i) = .ok i := by
  cases i with
  | tInit | tWaitclr | aInit | aStart | aDone | aRead | aReadblk | dInit => rfl
  | tSetper v =>
    have hdecode : decodeHal (halWord 1 v) = .ok (.tSetper v) := by
      rw [decodeHal, halCodeField_halWord, halOperandField_halWord]
      rfl
    exact hdecode
  | aSel ch =>
    have hdecode : decodeHal (halWord 4 (ch.setWidth 16)) = halSelect 4 (ch.setWidth 16) := by
      rw [decodeHal, halCodeField_halWord, halOperandField_halWord]
      rfl
    exact hdecode.trans (halSelect_eq_ok.2 ⟨ch, rfl, rfl⟩)
  | dWrite p v =>
    have hdecode : decodeHal (halWord 10 ((p ++ v).setWidth 16)) = halWrite 10 ((p ++ v).setWidth 16) := by
      rw [decodeHal, halCodeField_halWord, halOperandField_halWord]
      rfl
    exact hdecode.trans (halWrite_eq_ok.2 ⟨p, v, by simpa [Instr.wf] using hwf, rfl, rfl⟩)
  | _ => cases hformat

/-! ### Selectable operations (R99) -/

/-- Under an admissible `VARIANT_CODE` the word of a variant selects its generator. -/
theorem decode_variantWord {cfg : Config} (hcode : cfg.variantCode.bijective = true) (v : Variant) :
    decode cfg (.wsel (variantWord cfg v)) = .ok v.generator := by
  obtain ⟨code, hv⟩ := VariantCode.exists_codeOf hcode v
  rw [decode, variantWord, hv, Option.getD_some, variantField_append, VariantCode.variantOf_of_codeOf hv]

theorem encode_generator (cfg : Config) (v : Variant) : encode cfg v.generator = .wsel (variantWord cfg v) := by
  cases v <;> rfl

theorem encode_quantizerOf (cfg : Config) (level : BitVec 2) :
    encode cfg (quantizerOf level) = .esel (levelWord level) := by
  have hlevel : level = 0 ∨ level = 1 ∨ level = 2 ∨ level = 3 := by revert level; decide
  obtain rfl | rfl | rfl | rfl := hlevel <;> rfl

theorem encode_advanceOf (cfg : Config) (k : BitVec 7) : encode cfg (advanceOf k) = .adv k := by
  unfold advanceOf
  split
  next hzero => rw [hzero]; rfl
  next => rfl

/-! ### The statements -/

/-- Settles O3. -/
theorem writtenWordsDecode : Obligations.WrittenWordsDecode := ⟨rfl, rfl, rfl, rfl, rfl⟩

/-- Settles O4: the `WSEL` words by the code of the variant, the HAL words by their operand, the others by their fields. -/
theorem decodeInvertsEncode : Obligations.DecodeInvertsEncode := by
  intro cfg i hcode hwf
  cases i with
  | sine => exact decode_variantWord hcode .sine
  | tri => exact decode_variantWord hcode .triangle
  | pulse => exact decode_variantWord hcode .pulse
  | saw => exact decode_variantWord hcode .saw
  | ssaw => exact decode_variantWord hcode .superSaw
  | csaw => exact decode_variantWord hcode .clippedSaw
  | cssaw => exact decode_variantWord hcode .clippedSuperSaw
  | noise => exact decode_variantWord hcode .noise
  | qz32 | qz16 | qz8 | qz4 => rfl
  | reload pidx => rw [encode, decode, pidxField_append]
  | acqWsel | acqWdisc | acqWlatch | acqEsel | acqEdisc | acqElatchFsel | acqFdisc | acqFlatch => rfl
  | acqNop band off =>
    have hoff : off ≠ 0 := by simpa [Instr.wf] using hwf
    rw [encode, decode, acquisitionOf, offField_append, bandField_append, if_neg hoff]
  | advHold => rfl
  | advInc skip =>
    have hskip : skip ≠ 0 := by simpa [Instr.wf] using hwf
    rw [encode, decode, advanceOf, if_neg hskip]
  | encSingle | encQuad => rfl
  | tInit | tSetper | tWaitclr | aInit | aSel | aStart | aDone | aRead | aReadblk | dInit | dWrite =>
    exact decode_encode_hal cfg rfl hwf

/-- Settles O5: by the format of the word. -/
theorem encodeInvertsDecode : Obligations.EncodeInvertsDecode := by
  intro cfg sel i hcode hquad hdecode
  cases sel with
  | wsel w =>
    obtain rfl := Except.ok.inj hdecode
    rw [encode_generator, variantWord, VariantCode.codeOf_variantOf hcode, Option.getD_some, variantField_append_zero]
    rfl
  | esel w =>
    obtain rfl := Except.ok.inj hdecode
    rw [encode_quantizerOf, levelWord_levelField]
    rfl
  | fsel w =>
    obtain rfl := Except.ok.inj hdecode
    rw [encode, pidxField_append_zero]
    rfl
  | aph b =>
    obtain rfl := Except.ok.inj hdecode
    exact encode_acquisitionOf cfg b
  | adv k =>
    obtain rfl := Except.ok.inj hdecode
    exact encode_advanceOf cfg k
  | cfg m =>
    obtain rfl := Except.ok.inj hdecode
    cases m <;> rfl
  | quad ch => exact absurd rfl (hquad ch)
  | hal w => exact (encode_decodeHal cfg hdecode).2

end Sys2Proof
end

section
/-! PROOFS. The operation of each position (41_frame_scheduler.md R123, 70_reset_and_hazards.md R301): which one the core's word decodes to,
that it is well-formed, the core's step as that operation, and the statements O1 and O2. -/

namespace Sys2Proof
open Sys2Proof.Machine

/-! ### The operation of a position -/

/-- The operation that the core's word at its position decodes to; none where it writes its own registers. -/
def Machine.State.operation (s : State) : Option Instr :=
  match s.seq.fstep with
  | .boot => bootOperation s.cfg s.seq.boot
  | .wait => some .tWaitclr
  | .reload => some (.reload (pidxField s.core.df))
  | .synth =>
    match s.cfg.outputMode with
    | .single => some (s.cfg.variantCode.variantOf (variantField s.core.dw)).generator
    | .quad => some s.seq.chan.generator
  | .effect => some (quantizerOf (levelField s.core.de))
  | .encode => some s.cfg.outputMode.encoder
  | .acq => some (acquisitionOf (acqWord s.core.cnt))
  | .advance => some (advanceOf (skipField s.core.cnt))

/-- The reset sequence issues HAL operations. -/
theorem bootOperation_hal {cfg : Config} {b : BootStep} {i : Instr} (h : bootOperation cfg b = some i) :
    i.format = .hal ∧ i.wf = true := by
  cases b <;> cases h <;> exact ⟨rfl, rfl⟩

theorem bootOperation_eq_none {cfg : Config} {b : BootStep} (h : bootOperation cfg b = none) : b = .regs := by
  cases b with
  | regs => rfl
  | _ => cases h

/-- The word at a position with an operation decodes to it. -/
theorem decode_selector_of_operation {s : State} {i : Instr} (h : s.operation = some i) :
    ∃ sel, s.selector = some sel ∧ decode s.cfg sel = .ok i := by
  unfold State.operation at h
  unfold State.selector
  cases hstep : s.seq.fstep <;> simp only [hstep] at h ⊢
  case boot =>
    obtain ⟨hformat, hwf⟩ := bootOperation_hal h
    exact ⟨encode s.cfg i, by simp only [h, Option.map_some], decode_encode_hal s.cfg hformat hwf⟩
  case synth =>
    cases hmode : s.cfg.outputMode <;> simp only [hmode] at h ⊢
    all_goals exact ⟨_, rfl, congrArg Except.ok (Option.some.inj h)⟩
  all_goals exact ⟨_, rfl, congrArg Except.ok (Option.some.inj h)⟩

/-- Only the step that writes the core registers has no operation, and it selects no word. -/
theorem position_of_operation_eq_none {s : State} (h : s.operation = none) :
    s.seq.fstep = .boot ∧ s.seq.boot = .regs ∧ s.selector = none := by
  unfold State.operation at h
  cases hstep : s.seq.fstep with
  | boot =>
    simp only [hstep] at h
    have hregs := bootOperation_eq_none h
    refine ⟨rfl, hregs, ?_⟩
    rw [State.selector, hstep]
    simp only [h, Option.map_none]
  | synth => cases hmode : s.cfg.outputMode <;> simp [hstep, hmode] at h
  | _ => simp [hstep] at h

/-! ### Well-formed operations (R99, R101) -/

theorem generator_wf (v : Variant) : v.generator.wf = true := by
  cases v <;> rfl

theorem quantizerOf_wf (level : BitVec 2) : (quantizerOf level).wf = true := by
  revert level
  decide

theorem acquisitionOf_wf (b : BitVec 8) : (acquisitionOf b).wf = true := by
  unfold acquisitionOf
  split
  next => split <;> rfl
  next hoff => simpa [Instr.wf] using hoff

theorem advanceOf_wf (k : BitVec 7) : (advanceOf k).wf = true := by
  unfold advanceOf
  split
  next => rfl
  next hk => simpa [Instr.wf] using hk

/-- What a word decodes to is well-formed. -/
theorem decode_wf {cfg : Config} {sel : Selector} {i : Instr} (h : decode cfg sel = .ok i) : i.wf = true := by
  cases sel with
  | hal w => exact (encode_decodeHal cfg h).1
  | wsel w => obtain rfl := Except.ok.inj h; exact generator_wf _
  | esel w => obtain rfl := Except.ok.inj h; exact quantizerOf_wf _
  | fsel w => obtain rfl := Except.ok.inj h; rfl
  | aph b => obtain rfl := Except.ok.inj h; exact acquisitionOf_wf b
  | adv k => obtain rfl := Except.ok.inj h; exact advanceOf_wf k
  | cfg m => obtain rfl := Except.ok.inj h; cases m <;> rfl
  | quad ch => obtain rfl := Except.ok.inj h; cases ch <;> rfl

/-! ### The core's step -/

/-- Where the position has an operation, the core issues it. -/
theorem coreStep_eq_issue {s : State} {i : Instr} (hconfig : s.configFault = none) (h : s.operation = some i) :
    coreStep s = issue i s := by
  obtain ⟨sel, hsel, hdecode⟩ := decode_selector_of_operation h
  exact coreStep_of_decode hconfig hsel hdecode

/-- Where it has none, the core writes its registers. -/
theorem coreStep_eq_bootRegisters {s : State} (hconfig : s.configFault = none) (h : s.operation = none) :
    coreStep s = .next (bootRegisters s).advance := by
  obtain ⟨-, -, hsel⟩ := position_of_operation_eq_none h
  rw [coreStep, hconfig, hsel]

/-! ### The next move leaves the core's view alone -/

@[simp] theorem configFault_afterMove (s : State) : s.afterMove.configFault = s.configFault := by
  simp [State.configFault]

@[simp] theorem selector_afterMove (s : State) : s.afterMove.selector = s.selector := by
  simp [State.selector]

@[simp] theorem completes_afterMove (i : Instr) (s : State) : completes i s.afterMove = completes i s := by
  cases i <;> simp [completes]

/-- On the core's move the step is the core's. -/
theorem step_of_core {s : State} (hmove : s.nextMove = .core) : step s = coreStep s.afterMove := by
  rw [step_eq, hmove]
  rfl

/-! ### The statements -/

/-- Settles O1: the move is taken from the script, and what the core's step reads is the same after that. -/
theorem stepRunsDecodedOperation : Obligations.StepRunsDecodedOperation := by
  intro s sel i hmove hconfig hsel hdecode
  rw [step_of_core hmove, coreStep_of_decode (sel := sel) (i := i) (by simpa using hconfig) (by simpa using hsel)
    (by simpa using hdecode), issue, completes_afterMove]

/-- Settles O2: a position with an operation has its word, and the one with none is the register step. -/
theorem everyPositionSelectsAnOperation : Obligations.EveryPositionSelectsAnOperation := by
  intro s
  cases h : s.operation with
  | none => exact .inl (position_of_operation_eq_none h)
  | some i =>
    obtain ⟨sel, hsel, hdecode⟩ := decode_selector_of_operation h
    exact .inr ⟨sel, i, hsel, hdecode, decode_wf hdecode⟩

end Sys2Proof
end

section
/-! PROOFS. What an operation of the core can do to the devices, its place and the history (10_state.md sections 3 to 6): one statement
over all operations, from the shared ones up; then whole steps, and the statements O50 to O53. -/

namespace Sys2Proof
open Sys2Proof.Machine

/-! ### The writes of an operation -/

/-- What the operation `i` can do to the timer (10 R30, R31). -/
inductive TimerWrite (i : Instr) (cfg : Config) (t : Timer) : Timer → Prop where
  | keep : TimerWrite i cfg t t
  | init (hop : i = .tInit) :
      TimerWrite i cfg t { tcnt := 0, tper := cfg.pInit, tnxt := cfg.pInit, matchFlag := false, running := true }
  | period (hop : (∃ w, i = .tSetper w) ∨ ∃ p, i = .reload p) (v : Period) (hne : v ≠ 0) :
      TimerWrite i cfg t { t with tnxt := v }
  | clear (hop : i = .tWaitclr) : TimerWrite i cfg t t.clearMatch

/-- The operations that issue `A.SEL`. -/
def SelectsChannel (i : Instr) : Prop := (∃ ch, i = .aSel ch) ∨ i = .acqWsel ∨ i = .acqEsel ∨ i = .acqElatchFsel

/-- The operations that issue `A.START`. -/
def StartsConversion (i : Instr) : Prop :=
  i ∈ [Instr.aStart, .aReadblk, .acqWsel, .acqWdisc, .acqEsel, .acqEdisc, .acqElatchFsel, .acqFdisc]

/-- What the operation `i` can do to the ADC (10 R32, R33). -/
inductive AdcWrite (i : Instr) (a : Adc) : Adc → Prop where
  | keep : AdcWrite i a a
  | init (hop : i = .aInit) (ch : ChannelId) (v : Dial) : AdcWrite i a (a.initialised ch v)
  | select (hop : SelectsChannel i) (hrest : a.abusy = false) (ch : ChannelId) : AdcWrite i a (a.selected ch)
  | start (hop : StartsConversion i) (hrest : a.abusy = false) : AdcWrite i a a.started

/-- The operations that write a port (10 R34). -/
def WritesPort (i : Instr) : Prop := i = .encSingle ∨ i = .encQuad ∨ i = .dInit ∨ ∃ p v, i = .dWrite p v

/-- From `s` to `t` the devices and the bit `rdblk` change as the operation `i` can change them, the parameters stay, and the history
grows. -/
structure Writes (i : Instr) (s t : State) : Prop where
  cfg     : t.cfg = s.cfg
  history : ∃ es, t.events = s.events ++ es
  timer   : TimerWrite i s.cfg s.timer t.timer
  adc     : AdcWrite i s.adc t.adc
  ports   : t.ports ≠ s.ports → WritesPort i
  rdblk   : t.core.rdblk ≠ s.core.rdblk → i = .aReadblk

/-- With the place of the core: the operation counts the HAL operations that are done, from 0 round to 0 again (D28). -/
structure Effect (i : Instr) (s t : State) : Prop extends Writes i s t where
  place : t.seq = { s.seq with part := t.seq.part }
  part  : s.seq.part.val < halSteps i → t.seq.part.val = (s.seq.part.val + 1) % halSteps i

section
variable {i : Instr} {s t u : State}

/-- An operation of one HAL operation counts none. -/
theorem Writes.effect (h : Writes i s t) (hseq : t.seq = s.seq) (hone : halSteps i = 1) : Effect i s t :=
  ⟨h, by rw [hseq], fun hlt => by rw [hseq, hone]; omega⟩

/-- One HAL operation of a composite operation. -/
theorem Writes.effect_setPart {k : Fin 3} (h : Writes i s u) (hseq : u.seq = s.seq)
    (hk : s.seq.part.val < halSteps i → k.val = (s.seq.part.val + 1) % halSteps i) : Effect i s (u.setPart k) :=
  ⟨⟨h.cfg, h.history, h.timer, h.adc, h.ports, h.rdblk⟩, by simp [hseq], hk⟩

/-! ### The shared operations -/

theorem writes_of_keepsDevices (h : keepsDevices s t) (hrdblk : t.core.rdblk = s.core.rdblk) : Writes i s t := by
  obtain ⟨⟨hcfg, -⟩, htimer, hadc, hports, -, hevents, -⟩ := h
  exact ⟨hcfg, ⟨[], by simpa using hevents⟩, htimer ▸ .keep, hadc ▸ .keep, absurd hports, absurd hrdblk⟩

theorem effect_of_keepsDevices (h : keepsDevices s t) (hrdblk : t.core.rdblk = s.core.rdblk) (hone : halSteps i = 1) :
    Effect i s t :=
  (writes_of_keepsDevices h hrdblk).effect h.1.2 hone

theorem putSample_effect {v : Sample} (h : (.next (s.putSample v) : Result) = .next t) (hone : halSteps i = 1) :
    Effect i s t := by
  cases h
  obtain ⟨-, hcore, hkeep⟩ := onlySample_putSample s v
  exact effect_of_keepsDevices hkeep (by rw [hcore]) hone

theorem quantizeBy_effect {space : TableSpace} {q : List (BitVec 8)} (h : quantizeBy space q s = .next t)
    (hone : halSteps i = 1) : Effect i s t := by
  obtain ⟨v, -, rfl⟩ := quantizeBy_eq_next.1 h
  exact putSample_effect rfl hone

theorem setPeriod_effect {pidx : BitVec 9} {v : Period} (h : setPeriod pidx v s = .next t)
    (hop : (∃ w, i = .tSetper w) ∨ ∃ p, i = .reload p) : Effect i s t := by
  obtain ⟨hne, rfl⟩ := setPeriod_eq_next.1 h
  have hone : halSteps i = 1 := by obtain ⟨w, rfl⟩ | ⟨p, rfl⟩ := hop <;> rfl
  exact Writes.effect ⟨rfl, ⟨_, rfl⟩, .period hop v hne, .keep, absurd rfl, absurd rfl⟩ rfl hone

theorem memWritePort_writes {p : PortId} {v : PortWord} (h : memWritePort p v s = .next t) (hop : WritesPort i) :
    Writes i s t ∧ t.seq = s.seq := by
  obtain ⟨-, rfl⟩ := memWritePort_eq_next.1 h
  exact ⟨⟨rfl, ⟨_, rfl⟩, .keep, .keep, fun _ => hop, absurd rfl⟩, rfl⟩

theorem selectChannel_writes {ch : ChannelId} (h : selectChannel ch s = .next t) (hop : SelectsChannel i) :
    Writes i s t ∧ t.seq = s.seq := by
  obtain ⟨hrest, -, rfl⟩ := selectChannel_eq_next.1 h
  exact ⟨⟨rfl, ⟨_, rfl⟩, .keep, .select hop hrest ch, absurd rfl, absurd rfl⟩, rfl⟩

theorem startConversion_writes (h : startConversion s = .next t) (hop : StartsConversion i) :
    Writes i s t ∧ t.seq = s.seq := by
  obtain ⟨hrest, rfl⟩ := startConversion_eq_next.1 h
  exact ⟨⟨rfl, ⟨_, rfl⟩, .keep, .start hop hrest, absurd rfl, absurd rfl⟩, rfl⟩

theorem readResult_writes (h : readResult s = .next t) : Writes i s t ∧ t.seq = s.seq := by
  obtain ⟨-, rfl⟩ := readResult_eq_next.1 h
  exact ⟨⟨rfl, ⟨_, rfl⟩, .keep, .keep, absurd rfl, absurd rfl⟩, rfl⟩

/-- A read whose result is latched in a core register. -/
theorem readAndLatch_writes {latch : CoreRegs → CoreRegs} (hlatch : ∀ c, (latch c).rdblk = c.rdblk)
    (h : (andThen (readResult s) fun u => .next (u.setCore (latch u.core))) = .next t) :
    Writes i s t ∧ t.seq = s.seq := by
  obtain ⟨u, hread, hset⟩ := andThen_eq_next.1 h
  obtain ⟨-, rfl⟩ := readResult_eq_next.1 hread
  cases hset
  exact ⟨⟨rfl, ⟨_, rfl⟩, .keep, .keep, absurd rfl, absurd (hlatch _)⟩, rfl⟩

theorem stage_effect {k : Fin 3} {r : Result} (h : stage k r = .next t)
    (hr : ∀ {u}, r = .next u → Writes i s u ∧ u.seq = s.seq)
    (hk : s.seq.part.val < halSteps i → k.val = (s.seq.part.val + 1) % halSteps i) : Effect i s t := by
  obtain ⟨u, hu, rfl⟩ := stage_eq_next.1 h
  obtain ⟨hwrites, hseq⟩ := hr hu
  exact hwrites.effect_setPart hseq hk

theorem selectAndStart_effect {ch : ChannelId} (h : selectAndStart ch s = .next t) (htwo : halSteps i = 2)
    (hselect : SelectsChannel i) (hstart : StartsConversion i) : Effect i s t := by
  unfold selectAndStart at h
  split at h
  next hpart => exact stage_effect h (fun hu => selectChannel_writes hu hselect) fun _ => by simp [hpart, htwo]
  next hpart =>
    refine stage_effect h (fun hu => startConversion_writes hu hstart) fun hlt => ?_
    have hne : s.seq.part.val ≠ 0 := hpart
    have hone : s.seq.part.val = 1 := by omega
    simp [hone, htwo]

theorem discardAndStart_effect (h : discardAndStart s = .next t) (htwo : halSteps i = 2)
    (hstart : StartsConversion i) : Effect i s t := by
  unfold discardAndStart at h
  split at h
  next hpart => exact stage_effect h readResult_writes fun _ => by simp [hpart, htwo]
  next hpart =>
    refine stage_effect h (fun hu => startConversion_writes hu hstart) fun hlt => ?_
    have hne : s.seq.part.val ≠ 0 := hpart
    have hone : s.seq.part.val = 1 := by omega
    simp [hone, htwo]

theorem part_eq_two {k : Fin 3} (hzero : k.val ≠ 0) (hone : k.val ≠ 1) : k.val = 2 := by
  omega

theorem execAcqElatchFsel_effect (h : execAcqElatchFsel s = .next t) : Effect .acqElatchFsel s t := by
  unfold execAcqElatchFsel at h
  split at h
  next hpart =>
    exact stage_effect h (readAndLatch_writes (latch := fun c => { c with de := c.res }) fun _ => rfl) fun _ => by
      simp [hpart, halSteps]
  next hpart =>
    exact stage_effect h (fun hu => selectChannel_writes hu (by simp [SelectsChannel])) fun _ => by
      simp [hpart, halSteps]
  next hzero hone =>
    have htwo : s.seq.part.val = 2 := part_eq_two hzero hone
    exact stage_effect h (fun hu => startConversion_writes hu (by simp [StartsConversion])) fun _ => by
      simp [htwo, halSteps]

theorem execEncQuad_effect (h : execEncQuad s = .next t) : Effect .encQuad s t := by
  have hop : WritesPort .encQuad := .inr (.inl rfl)
  unfold execEncQuad at h
  split at h
  next hpart => exact stage_effect h (fun hu => memWritePort_writes hu hop) fun _ => by simp [hpart, halSteps]
  next hpart => exact stage_effect h (fun hu => memWritePort_writes hu hop) fun _ => by simp [hpart, halSteps]
  next hzero hone =>
    have htwo : s.seq.part.val = 2 := part_eq_two hzero hone
    exact stage_effect h (fun hu => memWritePort_writes hu hop) fun _ => by simp [htwo, halSteps]

theorem execTWaitclr_effect (h : execTWaitclr s = .next t) : Effect .tWaitclr s t := by
  unfold execTWaitclr at h
  split at h <;> cases h
  · exact Writes.effect ⟨rfl, ⟨_, rfl⟩, .clear rfl, .keep, absurd rfl, absurd rfl⟩ rfl rfl
  · exact Writes.effect ⟨rfl, ⟨[], by simp⟩, .keep, .keep, absurd rfl, absurd rfl⟩ rfl rfl

/-- The end of a blocking read: three events, and the result. -/
theorem finishRead_eq (hdone : s.adc.adone = true) :
    finishRead s = .next
      { s with core := { s.core with res := s.adc.ares, rdblk := false },
               events := s.events ++ [.aDone true, .aRead s.adc.ares, .aReadblk s.adc.ares] } := by
  simp [finishRead, pollDone, readResult, hdone, State.setCore, State.emit]

/-- What `A.READBLK` does: it starts, holds, or returns (46 R248). -/
theorem execAReadblk_eq_next (h : execAReadblk s = .next t) :
    (s.core.rdblk = false ∧ s.adc.abusy = false ∧
      t = ((s.setAdc s.adc.started).emit .aStart).setCore { s.core with rdblk := true }) ∨
    (s.core.rdblk = true ∧ s.adc.adone = false ∧ t = s) ∨
    (s.core.rdblk = true ∧ s.adc.adone = true ∧
      t = { s with core := { s.core with res := s.adc.ares, rdblk := false },
                   events := s.events ++ [.aDone true, .aRead s.adc.ares, .aReadblk s.adc.ares] }) := by
  unfold execAReadblk at h
  split at h
  next hpoll =>
    split at h
    next hdone =>
      rw [finishRead_eq hdone] at h
      cases h
      exact .inr (.inr ⟨hpoll, hdone, rfl⟩)
    next hdone =>
      cases h
      exact .inr (.inl ⟨hpoll, by simpa using hdone, rfl⟩)
  next hpoll =>
    obtain ⟨u, hu, ht⟩ := andThen_eq_next.1 h
    obtain ⟨hrest, rfl⟩ := startConversion_eq_next.1 hu
    cases ht
    exact .inl ⟨by simpa using hpoll, hrest, rfl⟩

theorem execAReadblk_effect (h : execAReadblk s = .next t) : Effect .aReadblk s t := by
  obtain ⟨-, hrest, rfl⟩ | ⟨-, -, rfl⟩ | ⟨-, -, rfl⟩ := execAReadblk_eq_next h
  · have hstart : StartsConversion .aReadblk := by simp [StartsConversion]
    exact Writes.effect ⟨rfl, ⟨_, rfl⟩, .keep, .start hstart hrest, absurd rfl, fun _ => rfl⟩ rfl rfl
  · exact Writes.effect ⟨rfl, ⟨[], by simp⟩, .keep, .keep, absurd rfl, absurd rfl⟩ rfl rfl
  · exact Writes.effect ⟨rfl, ⟨_, rfl⟩, .keep, .keep, absurd rfl, fun _ => rfl⟩ rfl rfl

/-! ### Every operation -/

/-- Every operation that gives a next state has an effect of its kind. -/
theorem exec_effect (h : exec i s = .next t) : Effect i s t := by
  cases i with
  | tri | noise => cases h; exact effect_of_keepsDevices (keepsDevices_setCore_putSample s _ _) (by simp) rfl
  | sine =>
    obtain ⟨v, -, hput⟩ := memRead_eq_next.1 h
    exact putSample_effect hput rfl
  | pulse | saw | ssaw | csaw | cssaw | qz32 => exact putSample_effect h rfl
  | qz16 | qz8 | qz4 => exact quantizeBy_effect h rfl
  | reload pidx =>
    obtain ⟨v, -, hset⟩ := memRead_eq_next.1 h
    exact setPeriod_effect hset (.inr ⟨_, rfl⟩)
  | acqWsel | acqEsel => exact selectAndStart_effect h rfl (by simp [SelectsChannel]) (by simp [StartsConversion])
  | acqWdisc | acqEdisc | acqFdisc => exact discardAndStart_effect h rfl (by simp [StartsConversion])
  | acqWlatch =>
    obtain ⟨hwrites, hseq⟩ := readAndLatch_writes (latch := fun c => { c with dw := c.res }) (fun _ => rfl) h
    exact hwrites.effect hseq rfl
  | acqFlatch =>
    obtain ⟨hwrites, hseq⟩ := readAndLatch_writes (latch := fun c => { c with df := c.res }) (fun _ => rfl) h
    exact hwrites.effect hseq rfl
  | acqElatchFsel => exact execAcqElatchFsel_effect h
  | acqNop => cases h; exact Writes.effect ⟨rfl, ⟨[], by simp⟩, .keep, .keep, absurd rfl, absurd rfl⟩ rfl rfl
  | advHold | advInc => cases h; exact effect_of_keepsDevices (keepsDevices_setCore s _) rfl rfl
  | encSingle =>
    obtain ⟨hwrites, hseq⟩ := memWritePort_writes h (.inl rfl)
    exact hwrites.effect hseq rfl
  | encQuad => exact execEncQuad_effect h
  | tInit =>
    obtain ⟨-, rfl⟩ := configure_eq_next.1 h
    exact Writes.effect ⟨rfl, ⟨_, rfl⟩, .init rfl, .keep, absurd rfl, absurd rfl⟩ rfl rfl
  | tSetper v => exact setPeriod_effect h (.inl ⟨v, rfl⟩)
  | tWaitclr => exact execTWaitclr_effect h
  | aInit =>
    obtain ⟨-, rfl⟩ := configure_eq_next.1 h
    exact Writes.effect ⟨rfl, ⟨_, rfl⟩, .keep, .init rfl _ _, absurd rfl, absurd rfl⟩ rfl rfl
  | aSel ch =>
    obtain ⟨hwrites, hseq⟩ := selectChannel_writes h (.inl ⟨ch, rfl⟩)
    exact hwrites.effect hseq rfl
  | aStart =>
    obtain ⟨hwrites, hseq⟩ := startConversion_writes (i := .aStart) h (by simp [StartsConversion])
    exact hwrites.effect hseq rfl
  | aDone => cases h; exact Writes.effect ⟨rfl, ⟨_, rfl⟩, .keep, .keep, absurd rfl, absurd rfl⟩ rfl rfl
  | aRead =>
    obtain ⟨hwrites, hseq⟩ := readResult_writes h
    exact hwrites.effect hseq rfl
  | aReadblk => exact execAReadblk_effect h
  | dInit =>
    obtain ⟨-, rfl⟩ := configure_eq_next.1 h
    exact Writes.effect ⟨rfl, ⟨_, rfl⟩, .keep, .keep, fun _ => .inr (.inr (.inl rfl)), absurd rfl⟩ rfl rfl
  | dWrite p v =>
    obtain ⟨hwrites, hseq⟩ := memWritePort_writes h (.inr (.inr (.inr ⟨p, v, rfl⟩)))
    exact hwrites.effect hseq rfl

end

/-! ### The writers of each device register -/

section
variable {i : Instr} {cfg : Config} {t t' : Timer} {a a' : Adc}

theorem TimerWrite.tcnt (h : TimerWrite i cfg t t') (hne : t'.tcnt ≠ t.tcnt) : i = .tInit := by
  cases h with
  | init hop => exact hop
  | _ => exact absurd rfl hne

theorem TimerWrite.tper (h : TimerWrite i cfg t t') (hne : t'.tper ≠ t.tper) : i = .tInit := by
  cases h with
  | init hop => exact hop
  | _ => exact absurd rfl hne

theorem TimerWrite.tnxt (h : TimerWrite i cfg t t') (hne : t'.tnxt ≠ t.tnxt) :
    i = .tInit ∨ (∃ v, i = .tSetper v) ∨ ∃ p, i = .reload p := by
  cases h with
  | init hop => exact .inl hop
  | period hop => exact .inr hop
  | _ => exact absurd rfl hne

theorem TimerWrite.matchFlag (h : TimerWrite i cfg t t') (hne : t'.matchFlag ≠ t.matchFlag) :
    i = .tInit ∨ i = .tWaitclr := by
  cases h with
  | init hop => exact .inl hop
  | clear hop => exact .inr hop
  | _ => exact absurd rfl hne

theorem AdcWrite.ach (h : AdcWrite i a a') (hne : a'.ach ≠ a.ach) : i = .aInit ∨ SelectsChannel i := by
  cases h with
  | init hop => exact .inl hop
  | select hop => exact .inr hop
  | _ => exact absurd rfl hne

theorem AdcWrite.asettle (h : AdcWrite i a a') (hne : a'.asettle ≠ a.asettle) : i = .aInit ∨ SelectsChannel i := by
  cases h with
  | init hop => exact .inl hop
  | select hop => exact .inr hop
  | _ => exact absurd rfl hne

theorem AdcWrite.flags (h : AdcWrite i a a') (hne : a'.abusy ≠ a.abusy ∨ a'.adone ≠ a.adone) :
    i ∈ [Instr.aInit, .aStart, .aReadblk, .acqWsel, .acqWdisc, .acqEsel, .acqEdisc, .acqElatchFsel, .acqFdisc] := by
  cases h with
  | init hop => exact hop ▸ List.mem_cons_self
  | start hop => exact List.mem_cons_of_mem _ hop
  | _ => exact hne.elim (absurd rfl) (absurd rfl)

theorem AdcWrite.ares (h : AdcWrite i a a') (hne : a'.ares ≠ a.ares) : i = .aInit := by
  cases h with
  | init hop => exact hop
  | _ => exact absurd rfl hne

end

/-! ### Whole steps -/

/-- The timer and the ADC write their own state and the history alone (R20). -/
theorem moveStep_of_agent {m : Move} {s t : State} (h : moveStep m s = .next t) (hcore : m ≠ .core)
    (hreset : m ≠ .reset) :
    t.cfg = s.cfg ∧ t.core = s.core ∧ t.samples = s.samples ∧ t.seq = s.seq ∧ t.ports = s.ports ∧
      ∃ es, t.events = s.events ++ es := by
  cases m with
  | core => exact absurd rfl hcore
  | reset => exact absurd rfl hreset
  | timerClock =>
    obtain ⟨-, rfl⟩ | ⟨-, -, -, rfl⟩ | ⟨-, -, -, rfl⟩ := timerClock_eq_next h
    · exact ⟨rfl, rfl, rfl, rfl, rfl, [], by simp⟩
    · exact ⟨rfl, rfl, rfl, rfl, rfl, _, rfl⟩
    · exact ⟨rfl, rfl, rfl, rfl, rfl, [], by simp⟩
  | timerMatch =>
    obtain ⟨-, rfl⟩ | ⟨-, rfl⟩ := timerMatch_eq_next h
    · exact ⟨rfl, rfl, rfl, rfl, rfl, [], by simp⟩
    · exact ⟨rfl, rfl, rfl, rfl, rfl, _, rfl⟩
  | adcComplete ain residual =>
    obtain ⟨-, rfl⟩ | ⟨-, rfl⟩ := adcComplete_eq_next h
    · exact ⟨rfl, rfl, rfl, rfl, rfl, [], by simp⟩
    · exact ⟨rfl, rfl, rfl, rfl, rfl, _, rfl⟩

theorem coreStep_cfg_events {s t : State} (h : coreStep s = .next t) :
    t.cfg = s.cfg ∧ ∃ es, t.events = s.events ++ es := by
  obtain ⟨-, ⟨-, rfl⟩ | ⟨sel, i, u, -, -, hexec, rfl⟩⟩ := coreStep_eq_next h
  · exact ⟨by simp [bootRegisters], [], by simp [bootRegisters]⟩
  · have heffect := exec_effect hexec
    obtain ⟨es, hes⟩ := heffect.history
    split
    · exact ⟨by simpa using heffect.cfg, es, by simpa using hes⟩
    · exact ⟨heffect.cfg, es, hes⟩

/-! ### The statements -/

/-- Settles O50: each kind of write of the timer and of the ADC, register by register. -/
theorem deviceRegisterWriters : Obligations.DeviceRegisterWriters := by
  intro i s t h
  obtain ⟨⟨-, -, htimer, hadc, hports, -⟩, -, -⟩ := exec_effect h
  exact ⟨htimer.tcnt, htimer.tper, htimer.tnxt, htimer.matchFlag, hadc.ach, hadc.asettle, hadc.flags, hadc.ares, hports⟩

/-- Settles O51. -/
theorem agentsLeaveCoreAlone : Obligations.AgentsLeaveCoreAlone := by
  intro s t hcore hreset h
  obtain ⟨-, hregs, hsamples, hseq, hports, -⟩ := moveStep_of_agent h hcore hreset
  simp [hregs, hsamples, hseq, hports]

/-- Settles O52: by whose move it is. -/
theorem tablesNeverChange : Obligations.TablesNeverChange := by
  intro s t h
  rw [step_eq] at h
  by_cases hcore : s.nextMove = .core
  · rw [hcore] at h
    simpa using coreStep_cfg_events h
  · by_cases hreset : s.nextMove = .reset
    · rw [hreset] at h
      cases h
      exact ⟨State.afterMove_cfg s, [.reset], by rw [← State.afterMove_events s]; rfl⟩
    · obtain ⟨hcfg, -, -, -, -, hevents⟩ := moveStep_of_agent h hcore hreset
      simpa [hcfg] using hevents

/-- Settles O53. -/
theorem resetEventRestarts : Obligations.ResetEventRestarts := by
  intro s hmove
  refine ⟨resetEvent s.afterMove, by rw [step_eq, hmove]; rfl, rfl, rfl, rfl, State.afterMove_cfg s, ?_⟩
  rw [← State.afterMove_events s]
  rfl

end Sys2Proof
end

section
/-! PROOFS. The waveform synthesizer (43_waveform_synthesizer.md): the generators that put a sample and no more, the triangle, the
noise generator and its step as a bijection, and the statements O9 to O15. -/

namespace Sys2Proof
open Sys2Proof.Machine

/-! ### Generators that put a sample and no more (R172, R175 to R180) -/

/-- An operation that puts the sample `v` and no more changes the sample alone. -/
theorem exists_onlySample {i : Instr} {s : State} {v : Sample} {n : Nat} (hexec : exec i s = .next (s.putSample v))
    (hv : v.toNat = n) : ∃ t, exec i s = .next t ∧ onlySample s t n :=
  ⟨_, hexec, hv ▸ onlySample_putSample s v⟩

/-- An entry of the sine table goes into the sample by its low five bits. -/
theorem sineEntry_toNat (v : BitVec 8) : ((v &&& 0x1F#8).setWidth 5).toNat = v.toNat % 32 := by
  rw [BitVec.toNat_setWidth, BitVec.toNat_and]
  change (v.toNat &&& 2 ^ 5 - 1) % 2 ^ 5 = v.toNat % 2 ^ 5
  rw [Nat.and_two_pow_sub_one_eq_mod, Nat.mod_mod]

/-- Settles O9: the remainder is an index of the table. -/
theorem sineReadsTable : Obligations.SineReadsTable := by
  intro s hlen
  have hindex := Nat.mod_lt s.core.cnt.toNat (Nat.pos_of_ne_zero hlen)
  have hentry := List.getElem?_eq_getElem hindex
  obtain ⟨t, hexec, honly⟩ := exists_onlySample (i := .sine) (memRead_some hentry) (sineEntry_toNat _)
  exact ⟨_, t, hentry, hexec, honly⟩

/-- Settles O11: the threshold as a number. -/
theorem pulseComparesThreshold : Obligations.PulseComparesThreshold := by
  intro s
  refine exists_onlySample (i := .pulse) rfl ?_
  rw [pulseThreshold_toNat]
  split <;> rfl

/-- Settles O12. -/
theorem sawsFollowCounter : Obligations.SawsFollowCounter := fun _ =>
  ⟨exists_onlySample (i := .saw) rfl (sawValue_toNat _), exists_onlySample (i := .csaw) rfl (csawValue_toNat _)⟩

/-- Settles O13. -/
theorem superSawsAverage : Obligations.SuperSawsAverage := fun s =>
  ⟨exists_onlySample (i := .ssaw) rfl (by rw [meanValue_toNat, sawValue_toNat, sawValue_toNat]),
    exists_onlySample (i := .cssaw) rfl (by rw [meanValue_toNat, csawValue_toNat, csawValue_toNat])⟩

/-! ### The triangle (R173) -/

theorem triNext_toNat (down : Bool) (t : Sample) :
    (triNext down t).toNat =
      if down = true ∧ 0 < t.toNat then t.toNat - 1 else if t.toNat < 31 then t.toNat + 1 else t.toNat := by
  revert down t
  decide

/-- Settles O10: the sample and the amplitude are one value. -/
theorem triangleSteps : Obligations.TriangleSteps := by
  intro s
  have hnext := triNext_toNat (directionBit s.core.cnt) s.core.tri
  have hdown : directionBit s.core.cnt = true ↔ s.core.cnt.toNat / 32 % 2 = 1 := by simp [directionBit_eq]
  simp only [hdown] at hnext
  exact ⟨_, _, rfl, rfl, by simpa using hnext, by simpa using hnext, by simp, keepsDevices_setCore_putSample s _ _⟩

/-! ### The noise generator (R181, R182) -/

/-- Settles O14. -/
theorem noiseStepsGenerator : Obligations.NoiseStepsGenerator := by
  intro s
  refine ⟨_, _, _, rfl, rfl, rfl, by simp [xorShift], ?_, keepsDevices_setCore_putSample s _ _⟩
  rw [State.sample_putSample, State.putSample_core, State.setCore_core, BitVec.extractLsb'_toNat]
  simp

/-- A left shift by at least 1, added to the word without carries, loses nothing: each bit follows from the bits below it. -/
theorem xor_shiftLeft_injective {w n : Nat} (hn : 1 ≤ n) : Function.Injective fun x : BitVec w => x ^^^ (x <<< n) := by
  intro x y hxy
  have hbits (i : Nat) : (x ^^^ (x <<< n)).getLsbD i = (y ^^^ (y <<< n)).getLsbD i := congrArg (·.getLsbD i) hxy
  refine BitVec.eq_of_getLsbD_eq fun i _ => ?_
  induction i using Nat.strong_induction_on with
  | _ i ih =>
    have hi := hbits i
    by_cases hlt : i < n
    · simpa [hlt] using hi
    · have hbelow := ih (i - n) (by omega) (by omega)
      simpa [hlt, hbelow] using hi

/-- The same for a right shift: each bit follows from the bits above it. -/
theorem xor_ushiftRight_injective {w n : Nat} (hn : 1 ≤ n) : Function.Injective fun x : BitVec w => x ^^^ (x >>> n) := by
  intro x y hxy
  have hbits (i : Nat) : (x ^^^ (x >>> n)).getLsbD i = (y ^^^ (y >>> n)).getLsbD i := congrArg (·.getLsbD i) hxy
  have key (d i : Nat) (hd : w ≤ i + d) : x.getLsbD i = y.getLsbD i := by
    induction d generalizing i with
    | zero => rw [BitVec.getLsbD_of_ge x i hd, BitVec.getLsbD_of_ge y i hd]
    | succ d ih => simpa [ih (n + i) (by omega)] using hbits i
  exact BitVec.eq_of_getLsbD_eq fun i _ => key w i (by omega)

theorem xorShift_injective {a b c : Nat} (ha : 1 ≤ a) (hb : 1 ≤ b) (hc : 1 ≤ c) : Function.Injective (xorShift a b c) :=
  (xor_shiftLeft_injective hc).comp ((xor_ushiftRight_injective hb).comp (xor_shiftLeft_injective ha))

theorem xorShift_zero (a b c : Nat) : xorShift a b c 0 = 0 := by
  simp [xorShift]

theorem xorShift_eq_zero {a b c : Nat} (ha : 1 ≤ a) (hb : 1 ≤ b) (hc : 1 ≤ c) {x : RngWord} :
    xorShift a b c x = 0 ↔ x = 0 := by
  rw [← xorShift_zero a b c, (xorShift_injective ha hb hc).eq_iff, xorShift_zero]

/-- Settles O15: an injective step on finitely many words is a bijection, and it keeps 0. -/
theorem xorShiftIsBijective : Obligations.XorShiftIsBijective := by
  rintro a b c ⟨ha, -⟩ ⟨hb, -⟩ ⟨hc, -⟩
  exact ⟨Finite.injective_iff_bijective.1 (xorShift_injective ha hb hc), fun x => xorShift_eq_zero ha hb hc⟩

end Sys2Proof
end

section
/-! PROOFS. What the core's step rests on for the invariant: which operation stands at which position, how many of its HAL operations are
done, and what every operation keeps. -/

namespace Sys2Proof
open Sys2Proof.Machine

/-! ### The operation of each position -/

/-- The format of the word at each position (R90, R123). -/
def Machine.FStep.format : FStep → Format
  | .boot => .hal
  | .wait => .hal
  | .reload => .fsel
  | .synth => .wsel
  | .effect => .esel
  | .encode => .cfg
  | .acq => .aph
  | .advance => .adv

section
variable {s t u : State} {i : Instr}

theorem format_of_operation (hop : s.operation = some i) : i.format = s.seq.fstep.format := by
  unfold State.operation at hop
  cases hstep : s.seq.fstep <;> simp only [hstep] at hop
  case boot => exact (bootOperation_hal hop).1
  case synth =>
    split at hop <;> cases hop
    · exact Variant.generator_format _
    · exact Channel.generator_format _
  all_goals cases hop
  case effect => exact quantizerOf_format _
  case encode => exact OutputMode.encoder_format _
  case acq => exact acquisitionOf_format _
  case advance => exact advanceOf_format _
  all_goals rfl

theorem operation_boot (hboot : s.seq.fstep = .boot) : s.operation = bootOperation s.cfg s.seq.boot := by
  rw [State.operation, hboot]

theorem operation_acq (hacq : s.seq.fstep = .acq) : s.operation = some (acquisitionOf (acqWord s.core.cnt)) := by
  rw [State.operation, hacq]

/-- After the reset sequence the one HAL operation that the core issues by name is `T.WAITCLR`. -/
theorem eq_tWaitclr_of_hal (hop : s.operation = some i) (hboot : s.seq.fstep ≠ .boot) (hformat : i.format = .hal) :
    i = .tWaitclr := by
  rw [format_of_operation hop] at hformat
  cases hstep : s.seq.fstep <;> simp [hstep, FStep.format] at hformat hboot
  rw [State.operation, hstep] at hop
  exact (Option.some.inj hop).symm

/-- `A.READBLK` is issued at its positions of the reset sequence alone (70 R301). -/
theorem operation_eq_aReadblk : s.operation = some .aReadblk ↔ s.seq.fstep = .boot ∧ bootReads s.seq.boot = true := by
  constructor
  · intro hop
    by_cases hboot : s.seq.fstep = .boot
    · rw [operation_boot hboot] at hop
      refine ⟨hboot, ?_⟩
      cases hb : s.seq.boot <;> simp_all [bootOperation, bootReads]
    · cases eq_tWaitclr_of_hal hop hboot rfl
  · rintro ⟨hboot, hreads⟩
    rw [operation_boot hboot]
    cases hb : s.seq.boot <;> simp_all [bootOperation, bootReads]

/-! ### How many HAL operations are done (D28) -/

theorem halSteps_pos (i : Instr) : 0 < halSteps i := by
  unfold halSteps
  split <;> decide

theorem halSteps_of_format (hformat : i.format ∉ [Format.aph, .cfg]) : halSteps i = 1 := by
  unfold halSteps
  split <;> simp_all [Instr.format]

theorem positionSteps_of_operation (hop : s.operation = some i) : positionSteps s = halSteps i := by
  have hformat := format_of_operation hop
  unfold State.operation at hop
  unfold positionSteps
  cases hstep : s.seq.fstep <;> simp only [hstep] at hop ⊢
  case encode => cases hop; rfl
  case acq => cases hop; rfl
  all_goals exact (halSteps_of_format (by simp [hformat, hstep, FStep.format])).symm

theorem positionSteps_pos (s : State) : 0 < positionSteps s := by
  unfold positionSteps
  split
  · exact halSteps_pos _
  · exact halSteps_pos _
  · exact Nat.one_pos

theorem completes_eq (hwait : i ≠ .tWaitclr) (hread : i ≠ .aReadblk) :
    completes i s = decide (halSteps i ≤ s.seq.part.val + 1) := by
  unfold completes
  split
  · exact absurd rfl hwait
  · exact absurd rfl hread
  · rfl

/-- An operation that is complete counts none. -/
theorem part_of_completes (hpart : s.seq.part.val < halSteps i) (hexec : exec i s = .next u)
    (hdone : completes i s = true) : u.seq.part = 0 := by
  have hcount := (exec_effect hexec).part hpart
  have hzero : (s.seq.part.val + 1) % halSteps i = 0 := by
    by_cases hone : halSteps i = 1
    · rw [hone, Nat.mod_one]
    · have hwait : i ≠ .tWaitclr := fun h => hone (h ▸ rfl)
      have hread : i ≠ .aReadblk := fun h => hone (h ▸ rfl)
      rw [completes_eq hwait hread, decide_eq_true_eq] at hdone
      rw [show s.seq.part.val + 1 = halSteps i by omega, Nat.mod_self]
  exact Fin.ext (hcount.trans hzero)

/-- An operation that is not complete and does not wait counts at least one. -/
theorem part_of_not_completes (hpart : s.seq.part.val < halSteps i) (hexec : exec i s = .next u)
    (hwait : i ≠ .tWaitclr) (hread : i ≠ .aReadblk) (hdone : completes i s = false) : u.seq.part ≠ 0 := by
  have hcount := (exec_effect hexec).part hpart
  rw [completes_eq hwait hread, decide_eq_false_iff_not] at hdone
  rw [Nat.mod_eq_of_lt (by omega)] at hcount
  intro hzero
  rw [hzero] at hcount
  exact absurd hcount (by simp)

/-! ### What an operation keeps -/

theorem TimerWrite.running {cfg : Config} {a a' : Timer} (h : TimerWrite i cfg a a') (hrun : a.running = true) :
    a'.running = true := by
  cases h with
  | init => rfl
  | _ => exact hrun

theorem TimerWrite.periods {cfg : Config} {a a' : Timer} (h : TimerWrite i cfg a a') (hinit : cfg.pInit ≠ 0)
    (hper : a.tper ≠ 0) (hnxt : a.tnxt ≠ 0) : a'.tper ≠ 0 ∧ a'.tnxt ≠ 0 := by
  cases h with
  | init => exact ⟨hinit, hinit⟩
  | period _ v hne => exact ⟨hper, hne⟩
  | _ => exact ⟨hper, hnxt⟩

theorem AdcWrite.exclusive {a a' : Adc} (h : AdcWrite i a a') (hflags : ¬(a.abusy = true ∧ a.adone = true)) :
    ¬(a'.abusy = true ∧ a'.adone = true) := by
  cases h with
  | init => simp [Adc.initialised]
  | start => simp [Adc.started]
  | _ => exact hflags

/-- Without a start an ADC at rest stays at rest. -/
theorem AdcWrite.rests {a a' : Adc} (h : AdcWrite i a a') (hstart : ¬StartsConversion i) (hrest : a.abusy = false) :
    a'.abusy = false := by
  cases h with
  | init => rfl
  | start hop => exact absurd hop hstart
  | _ => exact hrest

theorem exec_running (hexec : exec i s = .next u) (hrun : s.timer.running = true ∨ i = .tInit) :
    u.timer.running = true := by
  obtain hrun | rfl := hrun
  · exact (exec_effect hexec).timer.running hrun
  · obtain ⟨-, rfl⟩ := configure_eq_next.1 hexec
    rfl

/-- Only `NOISE` steps `RNG`, and it never steps it to 0 (10 R25). -/
theorem exec_rng_ne_zero (hgood : GoodConfig s) (hexec : exec i s = .next u) (hrng : s.core.rng ≠ 0) :
    u.core.rng ≠ 0 := by
  intro hzero
  obtain rfl := (exec_writesAsNamed hexec).rng (hzero ▸ hrng.symm)
  obtain ⟨⟨ha, -⟩, ⟨hb, -⟩, hc, -⟩ := Config.good_shifts hgood
  cases hexec
  rw [State.putSample_core, State.setCore_core, xorShift_eq_zero ha hb hc] at hzero
  exact hrng hzero

theorem exec_cnt (hexec : exec i s = .next u) (hformat : i.format ≠ .adv) : u.core.cnt = s.core.cnt := by
  by_contra hne
  obtain rfl | ⟨skip, rfl⟩ := (exec_writesAsNamed hexec).cnt hne <;> exact hformat rfl

/-- After the reset sequence only the acquisition operations write the ADC. -/
theorem exec_adc_of_ne_acq (hop : s.operation = some i) (hexec : exec i s = .next u) (hboot : s.seq.fstep ≠ .boot)
    (hacq : s.seq.fstep ≠ .acq) : u.adc = s.adc := by
  have haph : i.format ≠ .aph := by
    rw [format_of_operation hop]
    cases hstep : s.seq.fstep <;> simp_all [FStep.format]
  have hhal : i.format = .hal → i = .tWaitclr := eq_tWaitclr_of_hal hop hboot
  have hkeep := (exec_effect hexec).adc
  generalize u.adc = a at hkeep
  cases hkeep with
  | keep => rfl
  | init h => subst h; simp [Instr.format] at hhal
  | select h => obtain ⟨ch, rfl⟩ | rfl | rfl | rfl := h <;> simp [Instr.format] at hhal haph
  | start h =>
    simp only [StartsConversion, List.mem_cons, List.not_mem_nil, or_false] at h
    obtain rfl | rfl | rfl | rfl | rfl | rfl | rfl | rfl := h <;> simp [Instr.format] at hhal haph

end
end Sys2Proof
end

section
/-! PROOFS. The invariant of the machine (Safety.lean `Inv`): where the core goes next, the ADC in the cycle of acquisitions, one lemma per
part of the invariant for the core's step, the other agents, and the statements O54 and O55. -/

namespace Sys2Proof
open Sys2Proof.Machine

/-! ### Where the core goes next (10 R27) -/

@[simp] theorem after_part (m : OutputMode) (q : Sequencer) : (q.after m).part = q.part := by
  unfold Sequencer.after
  repeat' split
  all_goals rfl

/-- The core does not go back into the reset sequence. -/
theorem after_ne_boot {m : OutputMode} {q : Sequencer} (h : q.fstep ≠ .boot) : (q.after m).fstep ≠ .boot := by
  unfold Sequencer.after
  repeat' split
  all_goals simp_all

/-- The core comes to `ADVANCE` from `ACQ` alone. -/
theorem after_ne_advance {m : OutputMode} {q : Sequencer} (hacq : q.fstep ≠ .acq) (hadv : q.fstep ≠ .advance) :
    (q.after m).fstep ≠ .advance := by
  unfold Sequencer.after
  repeat' split
  all_goals simp_all

/-- In the reset sequence the core goes on to the next position of it, and from the last one to `WAIT`. -/
theorem after_boot {m : OutputMode} {q : Sequencer} (h : q.fstep = .boot) :
    (q.boot = .keepF ∧ q.after m = { q with fstep := .wait, boot := .dInit }) ∨
    (q.boot ≠ .keepF ∧ q.after m = { q with boot := q.boot.after }) := by
  unfold Sequencer.after
  rw [h]
  cases hb : q.boot <;> simp

/-- The channel is at the first one again when the core leaves `EFFECT` (log 14). -/
theorem after_channelRests {m : OutputMode} {q : Sequencer}
    (h : q.chan = .sine ∨ m = .quad ∧ (q.fstep = .synth ∨ q.fstep = .effect)) :
    (q.after m).chan = .sine ∨ m = .quad ∧ ((q.after m).fstep = .synth ∨ (q.after m).fstep = .effect) := by
  unfold Sequencer.after
  repeat' split
  all_goals simp_all

theorem bootLatch_keeps (b : BootStep) (c : CoreRegs) :
    (bootLatch b c).cnt = c.cnt ∧ (bootLatch b c).rng = c.rng ∧ (bootLatch b c).rdblk = c.rdblk := by
  cases b <;> exact ⟨rfl, rfl, rfl⟩

@[simp] theorem advance_cnt (s : State) : s.advance.core.cnt = s.core.cnt := by
  unfold State.advance
  split
  · exact (bootLatch_keeps _ _).1
  · rfl

@[simp] theorem advance_rng (s : State) : s.advance.core.rng = s.core.rng := by
  unfold State.advance
  split
  · exact (bootLatch_keeps _ _).2.1
  · rfl

@[simp] theorem advance_rdblk (s : State) : s.advance.core.rdblk = s.core.rdblk := by
  unfold State.advance
  split
  · exact (bootLatch_keeps _ _).2.2
  · rfl

/-! ### Reading the invariant -/

section
variable {s t u : State} {i : Instr}

theorem abusy_of_adone (hflags : adcFlagsExclusive s) (hdone : s.adc.adone = true) : s.adc.abusy = false := by
  cases hbusy : s.adc.abusy with
  | false => rfl
  | true => exact absurd ⟨hbusy, hdone⟩ hflags

theorem idleAdcRests_of_rest (hrest : s.adc.abusy = false) : idleAdcRests s := by
  unfold idleAdcRests
  split
  · exact fun _ => hrest
  · exact fun _ => hrest

theorem idleAdcRests_boot (hboot : s.seq.fstep = .boot) :
    idleAdcRests s ↔ (s.core.rdblk = false → s.adc.abusy = false) := by
  unfold idleAdcRests
  rw [hboot]

theorem idleAdcRests_frame (hboot : s.seq.fstep ≠ .boot) :
    idleAdcRests s ↔ (idleWindow (cyclePosition s) → s.adc.abusy = false) := by
  unfold idleAdcRests
  split
  · contradiction
  · rfl

theorem cyclePosition_advance (h : s.seq.fstep = .advance) : cyclePosition s = (acqWord s.core.cnt).toNat + 1 := by
  unfold cyclePosition
  rw [h]

theorem cyclePosition_of_ne_advance (h : s.seq.fstep ≠ .advance) : cyclePosition s = (acqWord s.core.cnt).toNat := by
  unfold cyclePosition
  split
  · contradiction
  · rfl

/-! ### The ADC in the cycle of acquisitions (42 R156) -/

/-- A read is of a finished conversion, so the ADC rests. -/
theorem readAndLatch_rests {latch : CoreRegs → CoreRegs} (hflags : adcFlagsExclusive s)
    (h : (andThen (readResult s) fun t => .next (t.setCore (latch t.core))) = .next u) : u.adc.abusy = false := by
  obtain ⟨t, hread, hset⟩ := andThen_eq_next.1 h
  obtain ⟨hdone, rfl⟩ := readResult_eq_next.1 hread
  cases hset
  exact abusy_of_adone hflags hdone

/-- A selection finds the ADC at rest and leaves it there; the start after it is the last part. -/
theorem selectAndStart_rests {ch : ChannelId} (h : selectAndStart ch s = .next u) (hpart : u.seq.part ≠ 0) :
    u.adc.abusy = false := by
  obtain ⟨-, hrest, -, rfl⟩ | ⟨-, -, rfl⟩ := selectAndStart_eq_next.1 h
  · exact hrest
  · exact absurd rfl hpart

theorem discardAndStart_rests (hflags : adcFlagsExclusive s) (h : discardAndStart s = .next u) (hpart : u.seq.part ≠ 0) :
    u.adc.abusy = false := by
  obtain ⟨-, hdone, rfl⟩ | ⟨-, -, rfl⟩ := discardAndStart_eq_next.1 h
  · exact abusy_of_adone hflags hdone
  · exact absurd rfl hpart

theorem execAcqElatchFsel_rests (hflags : adcFlagsExclusive s) (h : execAcqElatchFsel s = .next u)
    (hpart : u.seq.part ≠ 0) : u.adc.abusy = false := by
  unfold execAcqElatchFsel at h
  split at h
  · obtain ⟨t, ht, rfl⟩ := stage_eq_next.1 h
    have hrest := readAndLatch_rests (latch := fun c => { c with de := c.res }) hflags ht
    exact hrest
  · obtain ⟨t, ht, rfl⟩ := stage_eq_next.1 h
    obtain ⟨hrest, -, rfl⟩ := selectChannel_eq_next.1 ht
    exact hrest
  · obtain ⟨t, -, rfl⟩ := stage_eq_next.1 h
    exact absurd rfl hpart

/-- Between the HAL operations of an acquisition operation the ADC rests. -/
theorem acquisition_rests_between {w : BitVec 8} (hexec : exec (acquisitionOf w) s = .next u)
    (hflags : adcFlagsExclusive s) (hbetween : s.seq.part ≠ 0 → s.adc.abusy = false) (hpart : u.seq.part ≠ 0) :
    u.adc.abusy = false := by
  generalize hi : acquisitionOf w = i at hexec
  cases i with
  | acqWsel | acqEsel => exact selectAndStart_rests hexec hpart
  | acqWdisc | acqEdisc | acqFdisc => exact discardAndStart_rests hflags hexec hpart
  | acqElatchFsel => exact execAcqElatchFsel_rests hflags hexec hpart
  | acqWlatch => exact readAndLatch_rests (latch := fun c => { c with dw := c.res }) hflags hexec
  | acqFlatch => exact readAndLatch_rests (latch := fun c => { c with df := c.res }) hflags hexec
  | acqNop =>
    cases hexec
    exact hbetween hpart
  | _ => exact absurd (acquisitionOf_format w) (by simp [hi, Instr.format])

/-- An operation that starts a conversion ends outside the idle windows. -/
theorem not_idleWindow_of_starts {w : BitVec 8} (hstart : StartsConversion (acquisitionOf w)) :
    ¬idleWindow (w.toNat + 1) := by
  have key (p : BitVec 8) (h : acquisitionOf w = acquisitionOf p) (hp : ¬idleWindow (p.toNat + 1)) :
      ¬idleWindow (w.toNat + 1) := acquisitionOf_injective h ▸ hp
  simp only [StartsConversion, List.mem_cons, List.not_mem_nil, or_false] at hstart
  have hformat := acquisitionOf_format w
  obtain h | h | h | h | h | h | h | h := hstart
  · simp [h, Instr.format] at hformat
  · simp [h, Instr.format] at hformat
  · exact key 0x00 h (by simp [idleWindow])
  · exact key 0x20 h (by simp [idleWindow])
  · exact key 0x60 h (by simp [idleWindow])
  · exact key 0x80 h (by simp [idleWindow])
  · exact key 0xA0 h (by simp [idleWindow])
  · exact key 0xC0 h (by simp [idleWindow])

/-- The idle windows begin after a latch: no other word stands before one. -/
theorem idleWindow_of_succ {n : Nat} (hlatch : n ≠ 0x40 ∧ n ≠ 0xE0) (h : idleWindow (n + 1)) : idleWindow n := by
  unfold idleWindow at h ⊢
  omega

/-- After the frame's acquisition operation the ADC rests in the idle windows. -/
theorem acquisition_rests_idle {w : BitVec 8} (hexec : exec (acquisitionOf w) s = .next u)
    (hflags : adcFlagsExclusive s) (hidle : idleWindow w.toNat → s.adc.abusy = false) (hwindow : idleWindow (w.toNat + 1)) :
    u.adc.abusy = false := by
  by_cases hlatch : w.toNat ≠ 0x40 ∧ w.toNat ≠ 0xE0
  · exact (exec_effect hexec).adc.rests (fun hstart => not_idleWindow_of_starts hstart hwindow)
      (hidle (idleWindow_of_succ hlatch hwindow))
  · have hw : w = 0x40 ∨ w = 0xE0 := by bv_omega
    obtain rfl | rfl := hw
    · exact readAndLatch_rests (latch := fun c => { c with dw := c.res }) hflags hexec
    · exact readAndLatch_rests (latch := fun c => { c with df := c.res }) hflags hexec

/-! ### The core's step, part by part -/

/-- From `s` the core issues `i`, which leads to `u`, and goes on to `t` where `i` is complete. -/
structure Issues (i : Instr) (s u t : State) : Prop where
  op   : s.operation = some i
  exec : exec i s = .next u
  next : t = if completes i s then u.advance else u

namespace Issues

theorem cfg (h : Issues i s u t) : t.cfg = s.cfg := by
  have hcfg := (exec_effect h.exec).cfg
  rw [h.next]
  split <;> simpa using hcfg

theorem timer (h : Issues i s u t) : t.timer = u.timer := by
  rw [h.next]
  split <;> simp

theorem adc (h : Issues i s u t) : t.adc = u.adc := by
  rw [h.next]
  split <;> simp

theorem rng (h : Issues i s u t) : t.core.rng = u.core.rng := by
  rw [h.next]
  split <;> simp

theorem cnt (h : Issues i s u t) : t.core.cnt = u.core.cnt := by
  rw [h.next]
  split <;> simp

theorem rdblk (h : Issues i s u t) : t.core.rdblk = u.core.rdblk := by
  rw [h.next]
  split <;> simp

theorem fstep (h : Issues i s u t) : u.seq.fstep = s.seq.fstep := by
  rw [(exec_effect h.exec).place]

theorem boot (h : Issues i s u t) : u.seq.boot = s.seq.boot := by
  rw [(exec_effect h.exec).place]

theorem chan (h : Issues i s u t) : u.seq.chan = s.seq.chan := by
  rw [(exec_effect h.exec).place]

theorem seq_of_completes (h : Issues i s u t) (hdone : completes i s = true) :
    t.seq = u.seq.after s.cfg.outputMode := by
  rw [h.next, if_pos hdone, State.advance_seq, (exec_effect h.exec).cfg]

theorem seq_of_not_completes (h : Issues i s u t) (hdone : completes i s = false) : t.seq = u.seq := by
  rw [h.next, hdone]
  rfl

theorem flags (h : Issues i s u t) (hinv : Inv s) : adcFlagsExclusive t := by
  unfold adcFlagsExclusive
  rw [h.adc]
  exact (exec_effect h.exec).adc.exclusive hinv.flags

theorem rngNonzero (h : Issues i s u t) (hinv : Inv s) : rngNonzero t := by
  unfold Machine.rngNonzero
  rw [h.rng]
  exact exec_rng_ne_zero hinv.good h.exec hinv.rng

theorem periods (h : Issues i s u t) (hinv : Inv s) : periodsNonzero t := by
  unfold periodsNonzero
  rw [h.timer]
  exact (exec_effect h.exec).timer.periods (Config.good_pInit hinv.good) hinv.periods.1 hinv.periods.2

/-- `T.INIT` starts the timer at the last position at which it need not run. -/
theorem started (h : Issues i s u t) (hinv : Inv s) : timerStarted t := by
  intro hplace
  rw [h.timer]
  refine exec_running h.exec ?_
  by_cases hstarted : s.seq.fstep ≠ .boot ∨ bootUntilTimer s.seq.boot = false
  · exact .inl (hinv.started hstarted)
  · obtain ⟨hboot, huntil⟩ : s.seq.fstep = .boot ∧ bootUntilTimer s.seq.boot = true := by simpa using hstarted
    have hop := h.op
    rw [operation_boot hboot] at hop
    cases hdone : completes i s with
    | false => simp [h.seq_of_not_completes hdone, h.fstep, h.boot, hboot, huntil] at hplace
    | true =>
      rw [h.seq_of_completes hdone] at hplace
      obtain ⟨hlast, -⟩ | ⟨-, hseq⟩ := after_boot (m := s.cfg.outputMode) (h.fstep.trans hboot)
      · rw [h.boot] at hlast
        simp [hlast, bootUntilTimer] at huntil
      · rw [hseq, h.boot] at hplace
        cases hb : s.seq.boot <;>
          simp_all [bootUntilTimer, BootStep.after, bootOperation, h.fstep]

/-- The bit `rdblk` is set by the `A.READBLK` that starts and cleared by the one that returns. -/
theorem polls (h : Issues i s u t) (hinv : Inv s) : pollsOnlyAtBoot t := by
  intro hpoll
  rw [h.rdblk] at hpoll
  have hread : i = .aReadblk := by
    by_contra hne
    have hkept : u.core.rdblk = s.core.rdblk := by
      by_contra hchanged
      exact hne ((exec_effect h.exec).rdblk hchanged)
    have hop := operation_eq_aReadblk.2 (hinv.polls (hkept ▸ hpoll))
    exact hne (Option.some.inj (h.op.symm.trans hop))
  subst hread
  have hdone : completes .aReadblk s = false := by
    obtain ⟨hstart, -⟩ | ⟨-, hbusy, -⟩ | ⟨-, -, rfl⟩ := execAReadblk_eq_next h.exec
    · simp [completes, hstart]
    · simp [completes, hbusy]
    · cases hpoll
  rw [h.seq_of_not_completes hdone, h.fstep, h.boot]
  exact operation_eq_aReadblk.1 h.op

/-- No counter operation is issued in the reset sequence. -/
theorem zero (h : Issues i s u t) (hinv : Inv s) : bootCountsFromZero t := by
  intro hboot' hafter
  have hboot : s.seq.fstep = .boot := by
    by_contra hne
    cases hdone : completes i s with
    | false => exact hne (by rw [← h.fstep, ← h.seq_of_not_completes hdone, hboot'])
    | true =>
      rw [h.seq_of_completes hdone] at hboot'
      exact after_ne_boot (by rwa [h.fstep]) hboot'
  have hcnt : t.core.cnt = s.core.cnt :=
    h.cnt.trans (exec_cnt h.exec (by simp [format_of_operation h.op, hboot, FStep.format]))
  rw [hcnt]
  refine hinv.zero hboot ?_
  cases hdone : completes i s with
  | false => rwa [h.seq_of_not_completes hdone, h.boot] at hafter
  | true =>
    have hop := h.op
    rw [operation_boot hboot] at hop
    rw [h.seq_of_completes hdone] at hafter hboot'
    obtain ⟨-, hseq⟩ | ⟨-, hseq⟩ := after_boot (m := s.cfg.outputMode) (h.fstep.trans hboot)
    · rw [hseq] at hboot'
      cases hboot'
    · rw [hseq, h.boot] at hafter
      cases hb : s.seq.boot <;> simp_all [bootAfterRegs, BootStep.after, bootOperation]

theorem rests (h : Issues i s u t) (hinv : Inv s) : channelRests t := by
  have hu : u.seq.chan = .sine ∨ s.cfg.outputMode = .quad ∧ (u.seq.fstep = .synth ∨ u.seq.fstep = .effect) := by
    rw [h.chan, h.fstep]
    exact hinv.rests
  unfold channelRests
  rw [h.cfg]
  cases hdone : completes i s with
  | false => rwa [h.seq_of_not_completes hdone]
  | true =>
    rw [h.seq_of_completes hdone]
    exact after_channelRests hu

theorem part_lt (h : Issues i s u t) (hinv : Inv s) : s.seq.part.val < halSteps i :=
  positionSteps_of_operation h.op ▸ hinv.part

/-- After a complete operation no HAL operation is done; an operation that goes on has more of them. -/
theorem part (h : Issues i s u t) (hinv : Inv s) : partInRange t := by
  unfold partInRange
  cases hdone : completes i s with
  | true =>
    rw [h.seq_of_completes hdone, after_part, part_of_completes (h.part_lt hinv) h.exec hdone]
    exact positionSteps_pos t
  | false =>
    have hseq := h.seq_of_not_completes hdone
    have hsame : positionSteps t = halSteps i := by
      rw [← positionSteps_of_operation h.op]
      unfold positionSteps
      rw [hseq, h.fstep, h.cfg]
      cases hstep : s.seq.fstep <;> simp only
      rw [h.cnt, exec_cnt h.exec (by simp [format_of_operation h.op, hstep, FStep.format])]
    rw [hsame, hseq, (exec_effect h.exec).part (h.part_lt hinv)]
    exact Nat.mod_lt _ (halSteps_pos i)

theorem between (h : Issues i s u t) (hinv : Inv s) : partRests t := by
  intro hacq hpart
  cases hdone : completes i s with
  | true =>
    rw [h.seq_of_completes hdone, after_part, part_of_completes (h.part_lt hinv) h.exec hdone] at hpart
    exact absurd rfl hpart
  | false =>
    rw [h.seq_of_not_completes hdone] at hacq hpart
    rw [h.fstep] at hacq
    obtain rfl := Option.some.inj ((operation_acq hacq).symm.trans h.op)
    rw [h.adc]
    exact acquisition_rests_between h.exec hinv.flags (hinv.between hacq) hpart

/-- In the reset sequence only `A.READBLK` starts a conversion, and the one that returns has waited for it. -/
theorem idle_boot (h : Issues i s u t) (hinv : Inv s) (hboot : s.seq.fstep = .boot) : idleAdcRests t := by
  by_cases hread : i = .aReadblk
  · subst hread
    have hpolls (hu : u.core.rdblk = true) (hdone : completes .aReadblk s = false) : idleAdcRests t := by
      rw [idleAdcRests_boot (by rw [h.seq_of_not_completes hdone, h.fstep, hboot]), h.rdblk, hu]
      exact fun hclear => nomatch hclear
    obtain ⟨hstart, -, rfl⟩ | ⟨hpoll, hbusy, rfl⟩ | ⟨-, hdone, rfl⟩ := execAReadblk_eq_next h.exec
    · exact hpolls rfl (by simp [completes, hstart])
    · exact hpolls hpoll (by simp [completes, hbusy])
    · exact idleAdcRests_of_rest (h.adc ▸ abusy_of_adone hinv.flags hdone)
  · have hclear : s.core.rdblk = false := by
      by_contra hpoll
      have hop := operation_eq_aReadblk.2 (hinv.polls (by simpa using hpoll))
      exact hread (Option.some.inj (h.op.symm.trans hop))
    have hop := h.op
    rw [operation_boot hboot] at hop
    have hstart : ¬StartsConversion i := by
      cases hb : s.seq.boot <;> simp only [hb, bootOperation] at hop <;> cases hop <;>
        simp_all [StartsConversion]
    have hrest := (exec_effect h.exec).adc.rests hstart ((idleAdcRests_boot hboot).1 hinv.idle hclear)
    exact idleAdcRests_of_rest (h.adc ▸ hrest)

/-- The counter operation moves on to the next word; the window that ends the cycle goes on into the one that begins it. -/
theorem idleWindow_of_advance (h : Issues i s u t) (hadv : s.seq.fstep = .advance)
    (hwindow : idleWindow (cyclePosition t)) : idleWindow (cyclePosition s) := by
  have hop := h.op
  rw [State.operation, hadv] at hop
  obtain rfl := Option.some.inj hop
  have hcnt : t.core.cnt = s.core.cnt + 1 := by
    have hexec := h.exec
    rw [exec_advanceOf] at hexec
    cases hexec
    exact h.cnt
  have hne : t.seq.fstep ≠ .advance := by
    have hdone : completes (advanceOf (skipField s.core.cnt)) s = true :=
      completes_of_format (by simp [advanceOf_format])
    simp [h.seq_of_completes hdone, Sequencer.after, h.fstep, hadv]
  rw [cyclePosition_of_ne_advance hne, hcnt, acqWord_toNat, counter_add_one_toNat] at hwindow
  rw [cyclePosition_advance hadv, acqWord_toNat]
  unfold idleWindow at hwindow ⊢
  omega

/-- In a frame a conversion is in flight at most between a start and the latch that ends it. -/
theorem idle_frame (h : Issues i s u t) (hinv : Inv s) (hboot : s.seq.fstep ≠ .boot) : idleAdcRests t := by
  have hidle := (idleAdcRests_frame hboot).1 hinv.idle
  by_cases hacq : s.seq.fstep = .acq
  · obtain rfl := Option.some.inj ((operation_acq hacq).symm.trans h.op)
    have hformat := acquisitionOf_format (acqWord s.core.cnt)
    cases hdone : completes (acquisitionOf (acqWord s.core.cnt)) s with
    | false =>
      have hpart := part_of_not_completes (h.part_lt hinv) h.exec (fun hw => by simp [hw, Instr.format] at hformat)
        (fun hw => by simp [hw, Instr.format] at hformat) hdone
      exact idleAdcRests_of_rest
        (h.adc ▸ acquisition_rests_between h.exec hinv.flags (hinv.between hacq) hpart)
    | true =>
      have hnext : t.seq.fstep = .advance := by
        simp [h.seq_of_completes hdone, Sequencer.after, h.fstep, hacq]
      have hcnt : t.core.cnt = s.core.cnt := h.cnt.trans (exec_cnt h.exec (by simp [hformat]))
      rw [cyclePosition_of_ne_advance (by simp [hacq])] at hidle
      rw [idleAdcRests_frame (by simp [hnext]), cyclePosition_advance hnext, hcnt, h.adc]
      exact acquisition_rests_idle h.exec hinv.flags hidle
  · have hnext : t.seq.fstep ≠ .boot := by
      rw [h.next]
      split
      · simpa using after_ne_boot (by rwa [h.fstep])
      · rwa [h.fstep]
    rw [idleAdcRests_frame hnext, h.adc, exec_adc_of_ne_acq h.op h.exec hboot hacq]
    refine fun hwindow => hidle ?_
    by_cases hadv : s.seq.fstep = .advance
    · exact h.idleWindow_of_advance hadv hwindow
    · have hne : t.seq.fstep ≠ .advance := by
        rw [h.next]
        split
        · simpa using after_ne_advance (by rwa [h.fstep]) (by rwa [h.fstep])
        · rwa [h.fstep]
      have hformat : i.format ≠ .adv := by
        rw [format_of_operation h.op]
        cases hstep : s.seq.fstep <;> simp_all [FStep.format]
      rwa [cyclePosition_of_ne_advance hne, h.cnt, exec_cnt h.exec hformat,
        ← cyclePosition_of_ne_advance hadv] at hwindow

/-- Every part of the invariant is kept. -/
theorem inv (h : Issues i s u t) (hinv : Inv s) : Inv t where
  good := show t.cfg.good = true from h.cfg ▸ hinv.good
  flags := h.flags hinv
  rng := h.rngNonzero hinv
  periods := h.periods hinv
  started := h.started hinv
  polls := h.polls hinv
  zero := h.zero hinv
  idle := by
    by_cases hboot : s.seq.fstep = .boot
    · exact h.idle_boot hinv hboot
    · exact h.idle_frame hinv hboot
  rests := h.rests hinv
  part := h.part hinv
  between := h.between hinv

end Issues

/-- The step that writes the core registers keeps the invariant. -/
theorem bootRegisters_inv (hinv : Inv s) (hop : s.operation = none) : Inv (bootRegisters s).advance := by
  obtain ⟨hboot, hregs, -⟩ := position_of_operation_eq_none hop
  have hseq : (bootRegisters s).advance.seq = { s.seq with boot := .selW } := by
    simp [bootRegisters, Sequencer.after, hboot, hregs, BootStep.after]
  have hclear : s.core.rdblk = false := by
    by_contra hpoll
    have hreads := (hinv.polls (by simpa using hpoll)).2
    simp [hregs, bootReads] at hreads
  have hrest : s.adc.abusy = false := (idleAdcRests_boot hboot).1 hinv.idle hclear
  constructor
  · simpa [GoodConfig, bootRegisters] using hinv.good
  · simpa [adcFlagsExclusive, bootRegisters] using hinv.flags
  · simpa [rngNonzero, bootRegisters] using Config.good_seed hinv.good
  · simpa [periodsNonzero, bootRegisters] using hinv.periods
  · intro _
    simpa [bootRegisters] using hinv.started (.inr (by simp [hregs, bootUntilTimer]))
  · intro hpoll
    simp [bootRegisters, hclear] at hpoll
  · intro _ _
    simp [bootRegisters]
  · exact idleAdcRests_of_rest (by simpa [bootRegisters] using hrest)
  · unfold channelRests
    rw [hseq]
    exact .inl (by simpa [channelRests, hboot] using hinv.rests)
  · simpa only [partInRange, positionSteps, hseq, hboot] using hinv.part
  · intro hacq
    rw [hseq] at hacq
    exact absurd (hboot.symm.trans hacq) (by decide)

/-- Every step of the core keeps the invariant. -/
theorem coreStep_inv (hinv : Inv s) (h : coreStep s = .next t) : Inv t := by
  obtain ⟨hconfig, -⟩ := coreStep_eq_next h
  cases hop : s.operation with
  | none =>
    rw [coreStep_eq_bootRegisters hconfig hop] at h
    cases h
    exact bootRegisters_inv hinv hop
  | some i =>
    rw [coreStep_eq_issue hconfig hop, issue] at h
    obtain ⟨u, hexec, hnext⟩ := andThen_eq_next.1 h
    exact Issues.inv ⟨hop, hexec, (Host.Outcome.next.inj hnext).symm⟩ hinv

/-! ### The other agents -/

/-- The invariant does not read the environment, the samples, the ports or the history. -/
theorem Machine.Inv.congr (hinv : Inv s) (hcfg : t.cfg = s.cfg) (hcore : t.core = s.core) (hseq : t.seq = s.seq)
    (htimer : t.timer = s.timer) (hadc : t.adc = s.adc) : Inv t := by
  obtain ⟨cfg, core, samples, seq, timer, adc, ports, env, events⟩ := t
  cases hcfg; cases hcore; cases hseq; cases htimer; cases hadc
  exact ⟨hinv.good, hinv.flags, hinv.rng, hinv.periods, hinv.started, hinv.polls, hinv.zero, hinv.idle, hinv.rests,
    hinv.part, hinv.between⟩

/-- A timer that goes on running with nonzero periods keeps the invariant. -/
theorem Machine.Inv.setTimer (hinv : Inv s) {x : Timer} (hperiods : x.tper ≠ 0 ∧ x.tnxt ≠ 0)
    (hrun : s.timer.running = true → x.running = true) : Inv (s.setTimer x) :=
  ⟨hinv.good, hinv.flags, hinv.rng, hperiods, fun hplace => hrun (hinv.started hplace), hinv.polls, hinv.zero, hinv.idle,
    hinv.rests, hinv.part, hinv.between⟩

/-- An ADC at rest keeps the invariant. -/
theorem Machine.Inv.setAdc (hinv : Inv s) {x : Adc} (hrest : x.abusy = false) : Inv (s.setAdc x) :=
  ⟨hinv.good, fun hboth => by simp [hrest] at hboth, hinv.rng, hinv.periods, hinv.started, hinv.polls, hinv.zero,
    idleAdcRests_of_rest hrest, hinv.rests, hinv.part, fun _ _ => hrest⟩

theorem Machine.Inv.emit (hinv : Inv s) (e : Event) : Inv (s.emit e) := hinv.congr rfl rfl rfl rfl rfl

theorem timerClock_inv (hinv : Inv s) (h : timerClock s = .next t) : Inv t := by
  obtain ⟨hper, hnxt⟩ := hinv.periods
  obtain ⟨-, rfl⟩ | ⟨hrun, -, -, rfl⟩ | ⟨hrun, -, -, rfl⟩ := timerClock_eq_next h
  · exact hinv
  · exact (hinv.setTimer (x := { s.timer.raiseMatch with tcnt := 0 }) ⟨hnxt, hnxt⟩ fun _ => hrun).emit _
  · exact hinv.setTimer ⟨hper, hnxt⟩ fun _ => hrun

theorem timerMatch_inv (hinv : Inv s) (h : timerMatch s = .next t) : Inv t := by
  obtain ⟨-, hnxt⟩ := hinv.periods
  obtain ⟨-, rfl⟩ | ⟨hrun, rfl⟩ := timerMatch_eq_next h
  · exact hinv
  · exact (hinv.setTimer (x := s.timer.raiseMatch) ⟨hnxt, hnxt⟩ fun _ => hrun).emit _

theorem adcComplete_inv {ain residual : Dial} (hinv : Inv s) (h : adcComplete ain residual s = .next t) : Inv t := by
  obtain ⟨-, rfl⟩ | ⟨-, rfl⟩ := adcComplete_eq_next h
  · exact hinv
  · exact (hinv.setAdc rfl).emit _

/-- The state right after reset is in the invariant. -/
theorem resetOf_inv {cfg : Config} (hgood : cfg.good = true) : Inv (State.resetOf cfg) where
  good := hgood
  flags := fun hboth => nomatch hboth.1
  rng := Config.good_seed hgood
  periods := ⟨Config.good_pInit hgood, Config.good_pInit hgood⟩
  started := fun hplace => by obtain hne | huntil := hplace <;> contradiction
  polls := fun hpoll => nomatch hpoll
  zero := fun _ _ => rfl
  idle := fun _ => rfl
  rests := .inl rfl
  part := Nat.one_pos
  between := fun hacq => nomatch hacq

theorem moveStep_inv {m : Move} (hinv : Inv s) (h : moveStep m s = .next t) : Inv t := by
  cases m with
  | core => exact coreStep_inv hinv h
  | timerClock => exact timerClock_inv hinv h
  | timerMatch => exact timerMatch_inv hinv h
  | adcComplete ain residual => exact adcComplete_inv hinv h
  | reset =>
    cases h
    exact (resetOf_inv hinv.good).congr rfl rfl rfl rfl rfl

theorem Machine.Inv.afterMove (hinv : Inv s) : Inv s.afterMove :=
  hinv.congr (by simp) (by simp) (by simp) (by simp) (by simp)

end

/-! ### The statements -/

/-- Settles O54: each agent's move keeps the invariant. -/
theorem invariantKeptByEveryStep : Obligations.InvariantKeptByEveryStep := by
  intro s t hinv h
  exact moveStep_inv hinv.afterMove h

/-- Settles O55. -/
theorem invariantHoldsAtReset : Obligations.InvariantHoldsAtReset :=
  ⟨fun _ hgood => resetOf_inv hgood, resetOf_inv Config.default_good⟩

end Sys2Proof
end

section
/-! PROOFS. The ADC operations (46_hal_operations.md R243 to R248), the ADC's completion (42_dial_acquisition.md R141) and the acquisition
operations HAL operation by HAL operation (R144 to R151): the statements O25 to O28, O30, O41, O42 and O44 to O46. -/

namespace Sys2Proof
open Sys2Proof.Machine

/-! ### The ADC operations of the HAL -/

/-- `A.SEL` is refused exactly with the ADC at rest and a channel that is no dial's. -/
theorem selectChannel_eq_refused {ch : ChannelId} {s : State} {q : Refusal} :
    selectChannel ch s = .refused q ↔ s.adc.abusy = false ∧ s.dialChannel ch = false ∧ q = .channelWithoutInput ch := by
  unfold selectChannel
  split
  next hbusy => simp [hbusy]
  next hbusy =>
    split
    next hdial => simp [hdial]
    next hdial => simpa [hbusy, hdial] using eq_comm

theorem dialChannel_eq_false {ch : ChannelId} {s : State} (hw : ch ≠ s.cfg.chW) (he : ch ≠ s.cfg.chE)
    (hf : ch ≠ s.cfg.chF) : s.dialChannel ch = false := by
  simp [State.dialChannel, hw, he, hf]

/-- Settles O41: the configuration writes the flags at `BOOT`, and is refused after it. -/
theorem adcInitClearsFlags : Obligations.AdcInitClearsFlags := fun _ =>
  ⟨fun hboot => ⟨_, configure_eq_next.2 ⟨hboot, rfl⟩, rfl, rfl, rfl, rfl, rfl, rfl, rfl, rfl, rfl, rfl⟩,
    fun hboot => configure_eq_refused.2 ⟨hboot, rfl⟩⟩

theorem exec_aSel (ch : ChannelId) (s : State) : exec (.aSel ch) s = selectChannel ch s := rfl

/-- Settles O42. -/
theorem selectSetsChannel : Obligations.SelectSetsChannel := by
  intro s ch
  rw [exec_aSel]
  refine ⟨fun hbusy => selectChannel_eq_fault.2 ⟨hbusy, rfl⟩, fun hrest hdial => ?_, fun hrest hw he hf => ?_⟩
  · exact ⟨_, selectChannel_eq_next.2 ⟨hrest, dialChannel_of_dial hdial, rfl⟩, rfl, rfl, rfl,
      keepsAllButAdc_emit_setAdc s _ _⟩
  · exact selectChannel_eq_refused.2 ⟨hrest, dialChannel_eq_false hw he hf, rfl⟩

/-- A write of the result register and one event leave all else but the ADC alone. -/
theorem keepsAllButAdc_emit_setRes (s : State) (v : Dial) (e : Event) :
    keepsAllButAdc s ((s.setCore { s.core with res := v }).emit e) :=
  ⟨⟨rfl, rfl⟩, ⟨rfl, rfl⟩, ⟨rfl, rfl⟩, rfl, rfl, rfl, rfl, rfl⟩

/-- Settles O44. -/
theorem doneAndReadReturnValues : Obligations.DoneAndReadReturnValues := fun s =>
  ⟨⟨_, pollDone_eq s, rfl, rfl, rfl, keepsAllButAdc_emit_setRes s _ _⟩,
    fun hdone => ⟨_, readResult_eq_next.2 ⟨hdone, rfl⟩, rfl, rfl, rfl, keepsAllButAdc_emit_setRes s _ _⟩,
    fun hbusy => readResult_eq_fault.2 ⟨hbusy, rfl⟩⟩

theorem exec_aReadblk (s : State) : exec .aReadblk s = execAReadblk s := rfl

/-- `A.READBLK` that does not poll yet issues `A.START`. -/
theorem execAReadblk_start {s : State} (hclear : s.core.rdblk = false) :
    execAReadblk s = andThen (startConversion s) fun t => .next (t.setCore { t.core with rdblk := true }) := by
  rw [execAReadblk, hclear]
  rfl

/-- `A.READBLK` that polls holds until the conversion is done. -/
theorem execAReadblk_poll {s : State} (hpoll : s.core.rdblk = true) :
    execAReadblk s = if s.adc.adone = true then finishRead s else .next s := by
  rw [execAReadblk, hpoll]
  rfl

/-- Settles O45. -/
theorem blockingReadStartsHoldsReturns : Obligations.BlockingReadStartsHoldsReturns := by
  intro s
  rw [exec_aReadblk]
  refine ⟨fun hclear hrest => ?_, fun hclear hbusy => ?_, fun hpoll hbusy => ?_, fun hpoll hdone => ?_⟩
  · rw [execAReadblk_start hclear]
    exact ⟨_, andThen_eq_next.2 ⟨_, startConversion_eq_next.2 ⟨hrest, rfl⟩, rfl⟩, rfl, rfl, rfl, rfl, rfl, rfl, rfl,
      rfl, rfl⟩
  · rw [execAReadblk_start hclear, startConversion_eq_fault.2 ⟨hbusy, rfl⟩]
    rfl
  · rw [execAReadblk_poll hpoll, hbusy]
    rfl
  · rw [execAReadblk_poll hpoll, if_pos hdone, finishRead_eq hdone]
    exact ⟨_, rfl, rfl, rfl, rfl, rfl, rfl, rfl, rfl, rfl, rfl⟩

/-- Settles O46. -/
theorem adcCompletionLatchesResult : Obligations.AdcCompletionLatchesResult := by
  intro s ain residual
  refine ⟨fun hbusy => ⟨_, s.adc.converted ain residual, if_pos hbusy, fun hsettle => ?_, fun hsettle => ?_, rfl, rfl, rfl,
    keepsAllButAdc_emit_setAdc s _ _⟩, fun hrest => if_neg (by simp [hrest])⟩
  · simp [Adc.converted, hsettle]
  · simp [Adc.converted, hsettle]

/-! ### The HAL operations of an acquisition operation (D28) -/

theorem selectAndStart_first {ch : ChannelId} {s : State} (hpart : s.seq.part = 0) :
    selectAndStart ch s = stage 1 (selectChannel ch s) := by
  rw [selectAndStart, hpart]
  rfl

theorem selectAndStart_last {ch : ChannelId} {s : State} (hpart : s.seq.part ≠ 0) :
    selectAndStart ch s = stage 0 (startConversion s) := by
  unfold selectAndStart
  split
  next hzero => exact absurd (Fin.ext hzero) hpart
  next => rfl

theorem discardAndStart_first {s : State} (hpart : s.seq.part = 0) :
    discardAndStart s = stage 1 (readResult s) := by
  rw [discardAndStart, hpart]
  rfl

theorem discardAndStart_last {s : State} (hpart : s.seq.part ≠ 0) :
    discardAndStart s = stage 0 (startConversion s) := by
  unfold discardAndStart
  split
  next hzero => exact absurd (Fin.ext hzero) hpart
  next => rfl

theorem exec_acqElatchFsel (s : State) : exec .acqElatchFsel s = execAcqElatchFsel s := rfl

theorem execAcqElatchFsel_first {s : State} (hpart : s.seq.part = 0) :
    execAcqElatchFsel s =
      stage 1 (andThen (readResult s) fun t => .next (t.setCore { t.core with de := t.core.res })) := by
  rw [execAcqElatchFsel, hpart]
  rfl

theorem execAcqElatchFsel_second {s : State} (hpart : s.seq.part = 1) :
    execAcqElatchFsel s = stage 2 (selectChannel s.cfg.chF s) := by
  rw [execAcqElatchFsel, hpart]
  rfl

theorem execAcqElatchFsel_last {s : State} (hpart : s.seq.part = 2) :
    execAcqElatchFsel s = stage 0 (startConversion s) := by
  rw [execAcqElatchFsel, hpart]
  rfl

/-- The HAL operations of `ACQ.ELATCH_FSEL` after the first are the selection and the start. -/
theorem part_eq_one_or_two {k : Fin 3} (hk : k ≠ 0) : k = 1 ∨ k = 2 := by
  revert k
  decide

/-- Before the first HAL operation and after the last one none is done. -/
theorem setPart_zero_seq {q : Sequencer} (hpart : q.part = 0) : { q with part := 0 } = q := by
  rw [← hpart]

/-- Settles O25: both operations are one selection and one start. -/
theorem acqSelectsAndStarts : Obligations.AcqSelectsAndStarts := by
  intro s i ch hop hpart hrest
  obtain ⟨hexec, hdial⟩ : (∀ u : State, u.cfg = s.cfg → exec i u = selectAndStart ch u) ∧ s.dialChannel ch = true := by
    obtain ⟨rfl, rfl⟩ | ⟨rfl, rfl⟩ := hop
    · exact ⟨fun u hcfg => hcfg ▸ rfl, dialChannel_of_dial (.inl rfl)⟩
    · exact ⟨fun u hcfg => hcfg ▸ rfl, dialChannel_of_dial (.inr (.inl rfl))⟩
  refine ⟨_, (hexec s rfl).trans (selectAndStart_eq_next.2 (.inl ⟨hpart, hrest, hdial, rfl⟩)), rfl, ?_⟩
  refine (hexec _ ?_).trans (selectAndStart_eq_next.2 (.inr ⟨by simp, hrest, ?_⟩))
  · rfl
  simp [State.setAdc, State.emit, State.setPart, State.setSeq, Adc.selected, Adc.started, setPart_zero_seq hpart]

/-- Settles O26: the three operations are one read and one start. -/
theorem acqDiscardsAndRestarts : Obligations.AcqDiscardsAndRestarts := by
  intro s i hop hpart hdone hrest
  have hexec : ∀ u, exec i u = discardAndStart u := by
    obtain rfl | rfl | rfl := hop <;> exact fun _ => rfl
  refine ⟨_, (hexec s).trans (discardAndStart_eq_next.2 (.inl ⟨hpart, hdone, rfl⟩)), rfl, ?_⟩
  refine (hexec _).trans (discardAndStart_eq_next.2 (.inr ⟨by simp, hrest, ?_⟩))
  simp [State.setAdc, State.setCore, State.emit, State.setPart, State.setSeq, Adc.started, setPart_zero_seq hpart]

/-- Settles O27. -/
theorem acqLatchesResult : Obligations.AcqLatchesResult := by
  intro s hdone
  constructor
  · exact ⟨_, andThen_eq_next.2 ⟨_, readResult_eq_next.2 ⟨hdone, rfl⟩, rfl⟩, rfl, rfl, rfl, rfl, rfl,
      ⟨rfl, rfl⟩, ⟨rfl, rfl⟩, ⟨rfl, rfl⟩, rfl, rfl, rfl, rfl, rfl⟩
  · exact ⟨_, andThen_eq_next.2 ⟨_, readResult_eq_next.2 ⟨hdone, rfl⟩, rfl⟩, rfl, rfl, rfl, rfl, rfl,
      ⟨rfl, rfl⟩, ⟨rfl, rfl⟩, ⟨rfl, rfl⟩, rfl, rfl, rfl, rfl, rfl⟩

/-- Settles O28: the read that is latched, the selection, the start. -/
theorem acqLatchesEffectAndSelects : Obligations.AcqLatchesEffectAndSelects := by
  intro s hpart hdone hrest
  have hread := (execAcqElatchFsel_first hpart).trans (stage_eq_next.2
    ⟨_, andThen_eq_next.2 ⟨_, readResult_eq_next.2 ⟨hdone, rfl⟩, rfl⟩, rfl⟩)
  refine ⟨_, _, hread, rfl, ?_, rfl, ?_⟩
  · rw [exec_acqElatchFsel, execAcqElatchFsel_second (by rfl)]
    refine stage_eq_next.2 ⟨_, selectChannel_eq_next.2 ⟨by exact hrest, dialChannel_of_dial (.inr (.inr rfl)), rfl⟩, ?_⟩
    simp [State.setAdc, State.setCore, State.emit, State.setPart, State.setSeq, Adc.selected]
  · rw [exec_acqElatchFsel, execAcqElatchFsel_last (by rfl)]
    refine stage_eq_next.2 ⟨_, startConversion_eq_next.2 ⟨by exact hrest, rfl⟩, ?_⟩
    simp [State.setAdc, State.setCore, State.emit, State.setPart, State.setSeq, Adc.started,
      setPart_zero_seq hpart]

/-! ### Faults (60 R272) -/

/-- A read of an unfinished conversion stops what it is part of. -/
theorem readAndThen_fault {s : State} {k : State → Result} (hbusy : s.adc.adone = false) :
    andThen (readResult s) k = .fault (.adcNotDone s.core.cnt) := by
  rw [readResult_eq_fault.2 ⟨hbusy, rfl⟩]
  rfl

/-- Settles O30: the first HAL operation is the read or the selection, a later one the selection or the start. -/
theorem acquisitionFaults : Obligations.AcquisitionFaults := by
  intro s
  have hstart (hbusy : s.adc.abusy = true) : stage 0 (startConversion s) = .fault (.adcBusy s.core.cnt) :=
    stage_eq_fault.2 (startConversion_eq_fault.2 ⟨hbusy, rfl⟩)
  have hselect (hbusy : s.adc.abusy = true) (k : Fin 3) (ch : ChannelId) :
      stage k (selectChannel ch s) = .fault (.adcBusy s.core.cnt) :=
    stage_eq_fault.2 (selectChannel_eq_fault.2 ⟨hbusy, rfl⟩)
  refine ⟨fun hpart hdone i hi => ?_, fun hpart hbusy i hi => ?_, fun hpart hbusy i hi => ?_⟩
  · have hdiscard : discardAndStart s = .fault (.adcNotDone s.core.cnt) :=
      (discardAndStart_first hpart).trans (stage_eq_fault.2 (readResult_eq_fault.2 ⟨hdone, rfl⟩))
    simp only [List.mem_cons, List.not_mem_nil, or_false] at hi
    obtain rfl | rfl | rfl | rfl | rfl | rfl := hi
    · exact hdiscard
    · exact readAndThen_fault hdone
    · exact hdiscard
    · exact (execAcqElatchFsel_first hpart).trans (stage_eq_fault.2 (readAndThen_fault hdone))
    · exact hdiscard
    · exact readAndThen_fault hdone
  · simp only [List.mem_cons, List.not_mem_nil, or_false] at hi
    obtain rfl | rfl := hi
    · exact (selectAndStart_first hpart).trans (hselect hbusy _ _)
    · exact (selectAndStart_first hpart).trans (hselect hbusy _ _)
  · have hdiscard : discardAndStart s = .fault (.adcBusy s.core.cnt) := (discardAndStart_last hpart).trans (hstart hbusy)
    have hselectAndStart (ch : ChannelId) : selectAndStart ch s = .fault (.adcBusy s.core.cnt) :=
      (selectAndStart_last hpart).trans (hstart hbusy)
    have hlatch : execAcqElatchFsel s = .fault (.adcBusy s.core.cnt) := by
      obtain hone | htwo := part_eq_one_or_two hpart
      · exact (execAcqElatchFsel_second hone).trans (hselect hbusy _ _)
      · exact (execAcqElatchFsel_last htwo).trans (hstart hbusy)
    simp only [List.mem_cons, List.not_mem_nil, or_false] at hi
    obtain rfl | rfl | rfl | rfl | rfl | rfl := hi
    · exact hselectAndStart _
    · exact hdiscard
    · exact hselectAndStart _
    · exact hdiscard
    · exact hlatch
    · exact hdiscard

end Sys2Proof
end

section
/-! PROOFS. The timer and the ports (41_frame_scheduler.md sections 1 to 4, 46_hal_operations.md sections 1 and 3): the operations, clocks
and matches in a row, the counters' closed form, the wait that ends, and the statements O21, O23, O24, O33 to O40, O47 and O48. -/

namespace Sys2Proof
open Sys2Proof.Machine

/-! ### The timer's operations (R124, R240 to R242) -/

/-- A write of the timer and one event leave all else alone. -/
theorem keepsAllButTimer_emit_setTimer (s : State) (x : Timer) (e : Event) :
    keepsAllButTimer s ((s.setTimer x).emit e) :=
  ⟨⟨rfl, rfl⟩, rfl, rfl, rfl, rfl, rfl⟩

theorem exec_tSetper (v : Period) (s : State) : exec (.tSetper v) s = setPeriod (pidxField s.core.df) v s := rfl

/-- `T.WAITCLR` returns with `MATCH` set. -/
theorem exec_tWaitclr_of_match {s : State} (hmatch : s.timer.matchFlag = true) :
    exec .tWaitclr s = .next ((s.setTimer s.timer.clearMatch).emit .tWaitclr) :=
  if_pos hmatch

/-- `T.WAITCLR` holds with `MATCH` clear. -/
theorem exec_tWaitclr_of_clear {s : State} (hclear : s.timer.matchFlag = false) : exec .tWaitclr s = .next s :=
  if_neg (by simp [hclear])

/-- Settles O21: the table's entry is a period other than 0. -/
theorem reloadProgramsNextPeriod : Obligations.ReloadProgramsNextPeriod := by
  intro s pidx hgood
  obtain ⟨hlen, hne⟩ := Config.good_periodTable hgood
  have hindex : pidx.toNat < s.cfg.pt.length := hlen ▸ pidx.isLt
  have hentry := List.getElem?_eq_getElem hindex
  exact ⟨_, _, hentry, memRead_eq_next.2 ⟨_, hentry, setPeriod_eq_next.2 ⟨hne _ (List.getElem_mem hindex), rfl⟩⟩, rfl, rfl,
    keepsAllButTimer_emit_setTimer s _ _⟩

/-- Settles O33. -/
theorem timerInitStartsTimer : Obligations.TimerInitStartsTimer := fun s =>
  ⟨fun hboot => ⟨_, configure_eq_next.2 ⟨hboot, rfl⟩, rfl, rfl, keepsAllButTimer_emit_setTimer s _ _⟩,
    fun hboot => configure_eq_refused.2 ⟨hboot, rfl⟩⟩

/-- Settles O34. -/
theorem setPeriodWritesNext : Obligations.SetPeriodWritesNext := by
  intro s v
  rw [exec_tSetper]
  exact ⟨fun hne => ⟨_, setPeriod_eq_next.2 ⟨hne, rfl⟩, rfl, rfl, keepsAllButTimer_emit_setTimer s _ _⟩,
    fun hzero => setPeriod_eq_fault.2 ⟨hzero, rfl⟩⟩

/-- Settles O35: the next match takes over what `T.SETPER` wrote. -/
theorem periodTakesEffectAtNextMatch : Obligations.PeriodTakesEffectAtNextMatch := by
  intro s v hne hrun
  exact ⟨_, _, setPeriod_eq_next.2 ⟨hne, rfl⟩, rfl, rfl, if_pos hrun, rfl⟩

/-- Settles O36. -/
theorem waitClearsMatch : Obligations.WaitClearsMatch := fun s =>
  ⟨fun hmatch => ⟨_, exec_tWaitclr_of_match hmatch, rfl, rfl, keepsAllButTimer_emit_setTimer s _ _⟩,
    exec_tWaitclr_of_clear⟩

/-! ### The counter operations (R128 to R130) -/

/-- Settles O23. -/
theorem advHoldKeepsDetuned : Obligations.AdvHoldKeepsDetuned := by
  constructor
  · intro cfg cnt
    rw [← skipField_eq_zero, decode, Except.ok.injEq, advanceOf]
    split
    next hzero => exact iff_of_true rfl hzero
    next hne => exact iff_of_false (by simp) hne
  · exact fun s => ⟨_, rfl, counter_add_one_toNat _, rfl, rfl, keepsDevices_setCore s _⟩

/-- From a frame `k` with the closed form on, `n` more frames lead to the closed form for `k + n`. -/
theorem advanceFrames_closedForm {n k : Nat} {s : State} (hn : k + n < 65536) (hcnt : s.core.cnt.toNat = k)
    (hdet : s.core.det.toNat = k - (k + 127) / 128) :
    ∃ t, advanceFrames n s = .next t ∧ t.core.cnt.toNat = k + n ∧ t.core.det.toNat = k + n - (k + n + 127) / 128 := by
  induction n generalizing k s with
  | zero => exact ⟨s, rfl, hcnt, hdet⟩
  | succ n ih =>
    have hcnt' : (advancedCore s.core).cnt.toNat = k + 1 := by
      rw [advancedCore, counter_add_one_toNat]
      omega
    have hdet' : (advancedCore s.core).det.toNat = k + 1 - (k + 1 + 127) / 128 := by
      rw [advancedCore]
      dsimp only
      split
      · omega
      · rw [counter_add_one_toNat]
        omega
    obtain ⟨t, hrun, hfinal⟩ := ih (s := s.setCore (advancedCore s.core)) (by omega) hcnt' hdet'
    refine ⟨t, ?_, by rwa [Nat.add_right_comm, Nat.add_assoc k n 1] at hfinal⟩
    rw [advanceFrames, exec_advanceOf]
    exact hrun

/-- Settles O24: by induction on the frames, from any frame on. -/
theorem countersClosedForm : Obligations.CountersClosedForm := by
  intro n s hn hcnt hdet
  simpa using advanceFrames_closedForm (k := 0) (n := n) (s := s) (by omega) (by simp [hcnt]) (by simp [hdet])

/-! ### Clocks and matches in a row (R121, R122, R131) -/

theorem timerClock_match {s : State} (hrun : s.timer.running = true) (hne : s.timer.tper ≠ 0)
    (hmatch : s.timer.tcnt + 1 = s.timer.tper) :
    timerClock s = .next ((s.setTimer { s.timer.raiseMatch with tcnt := 0 }).emit .timerMatch) := by
  rw [timerClock, if_pos hrun, if_neg hne, if_pos hmatch]

theorem timerClock_count {s : State} (hrun : s.timer.running = true) (hne : s.timer.tper ≠ 0)
    (hmatch : s.timer.tcnt + 1 ≠ s.timer.tper) :
    timerClock s = .next (s.setTimer { s.timer with tcnt := s.timer.tcnt + 1 }) := by
  rw [timerClock, if_pos hrun, if_neg hne, if_neg hmatch]

theorem tcnt_add_one_eq_iff (c p : Period) : c + 1 = p ↔ (c.toNat + 1) % 65536 = p.toNat := by
  rw [← BitVec.toNat_inj, counter_add_one_toNat]

/-- Settles O38. -/
theorem timerClockCountsAndMatches : Obligations.TimerClockCountsAndMatches := by
  intro s
  refine ⟨fun hstop => if_neg (by simp [hstop]), fun hrun hzero => ?_, fun hrun hne hmatch => ?_, fun hrun hne hmatch => ?_⟩
  · rw [timerClock, if_pos hrun, if_pos hzero]
  · exact ⟨_, timerClock_match hrun hne ((tcnt_add_one_eq_iff _ _).2 hmatch), rfl, rfl,
      keepsAllButTimer_emit_setTimer s _ _⟩
  · exact ⟨_, timerClock_count hrun hne (mt (tcnt_add_one_eq_iff _ _).1 hmatch), rfl, rfl,
      ⟨⟨rfl, rfl⟩, rfl, rfl, rfl, rfl, rfl⟩⟩

/-- Below the active period `n` clocks count `n` more. -/
theorem clocks_count {n : Nat} {s : State} (hrun : s.timer.running = true)
    (hn : s.timer.tcnt.toNat + n < s.timer.tper.toNat) :
    ∃ c : Period, c.toNat = s.timer.tcnt.toNat + n ∧ clocks n s = .next (s.setTimer { s.timer with tcnt := c }) := by
  induction n generalizing s with
  | zero => exact ⟨s.timer.tcnt, rfl, rfl⟩
  | succ n ih =>
    have hlt := s.timer.tper.isLt
    have hcount : (s.timer.tcnt + 1).toNat = s.timer.tcnt.toNat + 1 := by
      rw [counter_add_one_toNat]
      omega
    have hclock : timerClock s = .next (s.setTimer { s.timer with tcnt := s.timer.tcnt + 1 }) :=
      timerClock_count hrun (by bv_omega) fun h => by rw [← h] at hn; omega
    obtain ⟨c, hc, hclocks⟩ := ih (s := s.setTimer { s.timer with tcnt := s.timer.tcnt + 1 }) hrun
      (by simp only [State.setTimer_timer]; omega)
    refine ⟨c, by simp only [hc, State.setTimer_timer]; omega, ?_⟩
    rw [clocks, hclock]
    exact hclocks

/-- The clock that reaches the active period is the match (D16). -/
theorem clocks_match {n : Nat} {s : State} (hrun : s.timer.running = true)
    (hn : s.timer.tcnt.toNat + (n + 1) = s.timer.tper.toNat) :
    clocks (n + 1) s = .next ((s.setTimer { s.timer.raiseMatch with tcnt := 0 }).emit .timerMatch) := by
  have hlt := s.timer.tper.isLt
  have hne : s.timer.tper ≠ 0 := by bv_omega
  induction n generalizing s with
  | zero =>
    have hmatch : s.timer.tcnt + 1 = s.timer.tper := (tcnt_add_one_eq_iff _ _).2 (by omega)
    rw [clocks, timerClock_match hrun hne hmatch]
    rfl
  | succ n ih =>
    have hcount : (s.timer.tcnt + 1).toNat = s.timer.tcnt.toNat + 1 := by
      rw [counter_add_one_toNat]
      omega
    have hclock : timerClock s = .next (s.setTimer { s.timer with tcnt := s.timer.tcnt + 1 }) :=
      timerClock_count hrun hne fun h => by rw [← h] at hn; omega
    rw [clocks, hclock]
    exact ih (s := s.setTimer { s.timer with tcnt := s.timer.tcnt + 1 }) hrun
      (by simp only [State.setTimer_timer]; omega) hlt hne

/-- Settles O39: clocks that count, and the last one that matches. -/
theorem intervalIsActivePeriod : Obligations.IntervalIsActivePeriod := by
  intro s hrun hzero hne
  have hstart : s.timer.tcnt.toNat = 0 := by simp [hzero]
  constructor
  · intro k hk
    obtain ⟨c, hc, hclocks⟩ := clocks_count (n := k) hrun (by omega)
    exact ⟨_, hclocks, by simp [hc, hstart], rfl, rfl⟩
  · obtain ⟨n, hn⟩ : ∃ n, s.timer.tper.toNat = n + 1 := Nat.exists_eq_succ_of_ne_zero (by bv_omega)
    rw [hn]
    exact ⟨_, clocks_match hrun (by omega), rfl, rfl, rfl, rfl⟩

/-- Matches in a row leave the timer as one match does: the second takes over the period that the first one took over. -/
theorem matchSteps_eq {n : Nat} {s : State} (hrun : s.timer.running = true) :
    matchSteps (n + 1) s =
      .next { s with timer := s.timer.raiseMatch, events := s.events ++ List.replicate (n + 1) .timerMatch } := by
  induction n generalizing s with
  | zero =>
    rw [matchSteps, timerMatch, if_pos hrun]
    rfl
  | succ n ih =>
    rw [matchSteps, timerMatch, if_pos hrun, andThen_next, ih (by exact hrun)]
    simp [State.setTimer, State.emit, Timer.raiseMatch, List.replicate_succ]

/-- Settles O40. -/
theorem matchesMergeIntoOne : Obligations.MatchesMergeIntoOne := fun _ _ hrun =>
  ⟨_, _, matchSteps_eq hrun, rfl, rfl, ⟨⟨rfl, rfl⟩, rfl, rfl, rfl, rfl, rfl⟩, exec_tWaitclr_of_match rfl, rfl,
    exec_tWaitclr_of_clear rfl⟩

/-! ### The wait that ends (R122, R125) -/

/-- At `WAIT` the core issues `T.WAITCLR`. -/
theorem coreStep_wait {s : State} (hwait : s.seq.fstep = .wait) : coreStep s = issue .tWaitclr s :=
  coreStep_eq_issue (configFault_of_ne_boot (by simp [hwait])) (by rw [State.operation, hwait])

theorem coreStep_wait_of_clear {s : State} (hwait : s.seq.fstep = .wait) (hclear : s.timer.matchFlag = false) :
    coreStep s = .next s := by
  rw [coreStep_wait hwait, issue, exec_tWaitclr_of_clear hclear]
  simp [completes, hclear]

/-- With `MATCH` set the core's step leaves `WAIT`. -/
theorem coreStep_leaves_wait {s t : State} (hwait : s.seq.fstep = .wait) (hmatch : s.timer.matchFlag = true)
    (h : coreStep s = .next t) : t.seq.fstep ≠ .wait := by
  rw [coreStep_wait hwait, issue, exec_tWaitclr_of_match hmatch] at h
  cases h
  simp [completes, hmatch, Sequencer.after, hwait]

/-- While the core stays at `WAIT` with `MATCH` set, it has not moved, and `MATCH` stays set. -/
theorem match_held {m : Move} {s t : State} (h : moveStep m s = .next t) (hwait : s.seq.fstep = .wait)
    (hstay : t.seq.fstep = .wait) (hmatch : s.timer.matchFlag = true) : m ≠ .core ∧ t.timer.matchFlag = true := by
  cases m with
  | core => exact absurd hstay (coreStep_leaves_wait hwait hmatch h)
  | timerClock =>
    obtain ⟨-, rfl⟩ | ⟨-, -, -, rfl⟩ | ⟨-, -, -, rfl⟩ := timerClock_eq_next h
    · exact ⟨by simp, hmatch⟩
    · exact ⟨by simp, rfl⟩
    · exact ⟨by simp, hmatch⟩
  | timerMatch =>
    obtain ⟨-, rfl⟩ | ⟨-, rfl⟩ := timerMatch_eq_next h
    · exact ⟨by simp, hmatch⟩
    · exact ⟨by simp, rfl⟩
  | adcComplete ain residual =>
    obtain ⟨-, rfl⟩ | ⟨-, rfl⟩ := adcComplete_eq_next h
    · exact ⟨by simp, hmatch⟩
    · exact ⟨by simp, hmatch⟩
  | reset =>
    cases h
    cases hstay

theorem matchFlag_of_isMatch {m : Move} {s t : State} (h : moveStep m s = .next t) (hmatch : isMatch m s) :
    t.timer.matchFlag = true := by
  obtain ⟨hrun, rfl | ⟨rfl, hne, hreach⟩⟩ := hmatch
  · obtain ⟨hstop, -⟩ | ⟨-, rfl⟩ := timerMatch_eq_next h
    · simp [hrun] at hstop
    · rfl
  · rw [moveStep, timerClock_match hrun hne hreach] at h
    cases h
    rfl

/-- Settles O37: were the core never to leave `WAIT`, `MATCH` would stay set from the next match on, and the core's next move would
leave `WAIT`. -/
theorem coreHoldsAtWait : Obligations.CoreHoldsAtWait := by
  constructor
  · intro s hmove hwait hclear
    rw [step_of_core hmove, coreStep_wait_of_clear (by simpa using hwait) (by simpa using hclear)]
  · intro ms r hrun htimer hcore n hwait
    by_contra hnever
    have hstay (m : Nat) (hm : n ≤ m) : (r m).seq.fstep = .wait := by
      obtain rfl | hlt := Nat.eq_or_lt_of_le hm
      · exact hwait
      · by_contra hne
        exact hnever ⟨m, hlt, hne⟩
    obtain ⟨m, hm, hmatch⟩ := htimer n
    have hset (j : Nat) : (r (m + 1 + j)).timer.matchFlag = true := by
      induction j with
      | zero => exact matchFlag_of_isMatch (hrun m) hmatch
      | succ j ih => exact (match_held (hrun (m + 1 + j)) (hstay _ (by omega)) (hstay _ (by omega)) ih).2
    obtain ⟨k, hk, hmove⟩ := hcore (m + 1)
    obtain ⟨j, rfl⟩ := Nat.exists_eq_add_of_le hk
    exact (match_held (hrun _) (hstay _ (by omega)) (hstay _ (by omega)) (hset j)).1 hmove

/-! ### The ports (R249, R250) -/

/-- Settles O47. -/
theorem portInitMakesOutputs : Obligations.PortInitMakesOutputs := fun _ =>
  ⟨fun hboot => ⟨_, configure_eq_next.2 ⟨hboot, rfl⟩, rfl, rfl, rfl, rfl, rfl, rfl, rfl, rfl⟩,
    fun hboot => configure_eq_refused.2 ⟨hboot, rfl⟩⟩

/-- Settles O48. -/
theorem portWriteSetsOnePort : Obligations.PortWriteSetsOnePort := by
  intro s p v
  constructor
  · intro hport
    exact ⟨_, memWritePort_eq_next.2 ⟨portInUse_iff.2 hport, rfl⟩, Ports.read_write_same s.ports p v,
      fun r hr hne => Ports.read_write_other hport.2 hr hne, Ports.write_outputs s.ports p v, rfl,
      ⟨rfl, rfl⟩, rfl, rfl, rfl, rfl, rfl⟩
  · intro hport
    refine memWritePort_eq_refused.2 ⟨fun huse => ?_, rfl⟩
    obtain ⟨hlt, hne⟩ := portInUse_iff.1 huse
    exact hport.elim (fun hle => absurd hlt (Nat.not_lt.2 hle)) hne

end Sys2Proof
end

section
/-! PROOFS. Where a step can stop (60_exceptions.md R272): from a state of the invariant every operation goes on, but for the read of an
unfinished conversion in a frame; the statements O56 and O57. -/

namespace Sys2Proof
open Sys2Proof.Machine

/-- The core stands before the `A.READ` of a frame's acquisition operation, and the conversion is not done. -/
structure ReadsUnfinished (s : State) : Prop where
  fstep : s.seq.fstep = .acq
  part  : s.seq.part = 0
  reads : readingWord (acqWord s.core.cnt) = true
  adone : s.adc.adone = false

/-- `r` goes on, or it is the fault of a read of an unfinished conversion. -/
def GoesOrReadsUnfinished (s : State) (r : Result) : Prop :=
  (∃ t, r = .next t) ∨ ReadsUnfinished s ∧ r = .fault (.adcNotDone s.core.cnt)

section
variable {s : State} {i : Instr}

/-! ### Operations that always go on -/

theorem stage_selectChannel_goes {ch : ChannelId} {k : Fin 3} (hrest : s.adc.abusy = false)
    (hdial : ch = s.cfg.chW ∨ ch = s.cfg.chE ∨ ch = s.cfg.chF) : ∃ t, stage k (selectChannel ch s) = .next t :=
  ⟨_, stage_eq_next.2 ⟨_, selectChannel_eq_next.2 ⟨hrest, dialChannel_of_dial hdial, rfl⟩, rfl⟩⟩

theorem stage_startConversion_goes {k : Fin 3} (hrest : s.adc.abusy = false) :
    ∃ t, stage k (startConversion s) = .next t :=
  ⟨_, stage_eq_next.2 ⟨_, startConversion_eq_next.2 ⟨hrest, rfl⟩, rfl⟩⟩

theorem execAReadblk_goes (hrest : s.core.rdblk = false → s.adc.abusy = false) : ∃ t, execAReadblk s = .next t := by
  cases hpoll : s.core.rdblk with
  | false =>
    rw [execAReadblk_start hpoll]
    exact ⟨_, andThen_eq_next.2 ⟨_, startConversion_eq_next.2 ⟨hrest hpoll, rfl⟩, rfl⟩⟩
  | true =>
    rw [execAReadblk_poll hpoll]
    split
    next hdone => exact ⟨_, finishRead_eq hdone⟩
    next => exact ⟨_, rfl⟩

theorem execTWaitclr_goes (s : State) : ∃ t, exec .tWaitclr s = .next t := by
  cases hmatch : s.timer.matchFlag with
  | true => exact ⟨_, exec_tWaitclr_of_match hmatch⟩
  | false => exact ⟨_, exec_tWaitclr_of_clear hmatch⟩

/-- Every operation of the reset sequence goes on: the ADC rests but while `A.READBLK` polls. -/
theorem exec_goes_boot (hinv : Inv s) (hop : s.operation = some i) (hboot : s.seq.fstep = .boot) :
    ∃ t, exec i s = .next t := by
  have hrest := (idleAdcRests_boot hboot).1 hinv.idle
  have hclear (hnoread : bootReads s.seq.boot = false) : s.adc.abusy = false :=
    hrest (by
      by_contra hpoll
      simp [(hinv.polls (by simpa using hpoll)).2] at hnoread)
  rw [operation_boot hboot] at hop
  cases hb : s.seq.boot <;> rw [hb] at hop hclear <;> cases hop
  case dInit => exact ⟨_, configure_eq_next.2 ⟨hboot, rfl⟩⟩
  case aInit => exact ⟨_, configure_eq_next.2 ⟨hboot, rfl⟩⟩
  case tInit => exact ⟨_, configure_eq_next.2 ⟨hboot, rfl⟩⟩
  case selW => exact ⟨_, selectChannel_eq_next.2 ⟨hclear rfl, dialChannel_of_dial (.inl rfl), rfl⟩⟩
  case selE => exact ⟨_, selectChannel_eq_next.2 ⟨hclear rfl, dialChannel_of_dial (.inr (.inl rfl)), rfl⟩⟩
  case selF => exact ⟨_, selectChannel_eq_next.2 ⟨hclear rfl, dialChannel_of_dial (.inr (.inr rfl)), rfl⟩⟩
  all_goals exact execAReadblk_goes hrest

/-- Good parameters put the port of `SINGLE_PINMAP` in use. -/
theorem portInUse_of_single (hgood : GoodConfig s) (hmode : s.cfg.outputMode = .single) :
    s.portInUse s.cfg.singlePinmap.port = true := by
  have hports := Config.good_meets hgood .nPorts
  have hport := Config.good_meets hgood .singlePinmap
  simp only [Config.meets, hmode, Bool.and_eq_true, decide_eq_true_eq] at hports
  simp only [Config.meets, hmode, reduceCtorEq, decide_false, Bool.false_or, decide_eq_true_eq] at hport
  rw [portInUse_iff]
  exact ⟨hport, by bv_omega⟩

theorem nPorts_of_quad (hgood : GoodConfig s) (hmode : s.cfg.outputMode = .quad) : s.cfg.nPorts = 3 := by
  simpa [Config.meets, hmode] using Config.good_meets hgood .nPorts

/-- The encoder of the build finds its ports in use. -/
theorem exec_encoder_goes (hgood : GoodConfig s) : ∃ t, exec s.cfg.outputMode.encoder s = .next t := by
  cases hmode : s.cfg.outputMode with
  | single => exact ⟨_, exec_encSingle (portInUse_of_single hgood hmode)⟩
  | quad => exact ⟨_, exec_encQuad (nPorts_of_quad hgood hmode).ge rfl⟩

theorem exec_generator_goes (hgood : GoodConfig s) (v : Variant) : ∃ t, exec v.generator s = .next t := by
  obtain ⟨g, hg⟩ := exists_generated hgood v
  exact ⟨_, exec_generator hg⟩

/-- Every operation of a frame but the acquisition goes on. -/
theorem exec_goes_frame (hinv : Inv s) (hop : s.operation = some i) (hboot : s.seq.fstep ≠ .boot)
    (hacq : s.seq.fstep ≠ .acq) : ∃ t, exec i s = .next t := by
  unfold State.operation at hop
  cases hstep : s.seq.fstep <;> simp only [hstep] at hop
  case boot => exact absurd hstep hboot
  case acq => exact absurd hstep hacq
  case synth =>
    split at hop <;> cases hop
    · exact exec_generator_goes hinv.good _
    · rw [← Channel.variant_generator]
      exact exec_generator_goes hinv.good _
  all_goals cases hop
  case wait => exact execTWaitclr_goes s
  case reload =>
    obtain ⟨v, hv, hne⟩ := exists_period hinv.good s.core.df
    exact ⟨_, (memRead_some hv).trans (setPeriod_eq_next.2 ⟨hne, rfl⟩)⟩
  case effect =>
    obtain ⟨v, hv⟩ := exists_quantized hinv.good s.core.de s.sample
    exact ⟨_, exec_quantizerOf_eq_next.2 ⟨v, hv, rfl⟩⟩
  case encode => exact exec_encoder_goes hinv.good
  case advance => exact ⟨_, exec_advanceOf s⟩

/-! ### The acquisition operations -/

/-- What comes after a part that goes on, or reads unfinished, does so too. -/
theorem GoesOrReadsUnfinished.andThen {r : Result} {k : State → Result} (h : GoesOrReadsUnfinished s r)
    (hk : ∀ u, ∃ t, k u = .next t) : GoesOrReadsUnfinished s (andThen r k) := by
  obtain ⟨u, rfl⟩ | ⟨hunfinished, rfl⟩ := h
  · exact .inl (hk u)
  · exact .inr ⟨hunfinished, rfl⟩

/-- At the first HAL operation of a reading word the core goes on exactly where the conversion is done. -/
theorem readResult_goes (hacq : s.seq.fstep = .acq) (hpart : s.seq.part = 0)
    (hreads : readingWord (acqWord s.core.cnt) = true) : GoesOrReadsUnfinished s (readResult s) := by
  cases hdone : s.adc.adone with
  | false => exact .inr ⟨⟨hacq, hpart, hreads, hdone⟩, readResult_eq_fault.2 ⟨hdone, rfl⟩⟩
  | true => exact .inl ⟨_, readResult_eq_next.2 ⟨hdone, rfl⟩⟩

/-- The acquisition operation of a frame: its selections and starts find the ADC at rest. -/
theorem exec_goes_acq (hinv : Inv s) (hacq : s.seq.fstep = .acq) :
    GoesOrReadsUnfinished s (exec (acquisitionOf (acqWord s.core.cnt)) s) := by
  have hidle := (idleAdcRests_frame (by simp [hacq])).1 hinv.idle
  rw [cyclePosition_of_ne_advance (by simp [hacq])] at hidle
  have hbetween := hinv.between hacq
  have hlt : s.seq.part.val < halSteps (acquisitionOf (acqWord s.core.cnt)) :=
    positionSteps_of_operation (operation_acq hacq) ▸ hinv.part
  have hselect (ch : ChannelId) (hdial : ch = s.cfg.chW ∨ ch = s.cfg.chE ∨ ch = s.cfg.chF)
      (hwindow : idleWindow (acqWord s.core.cnt).toNat) : GoesOrReadsUnfinished s (selectAndStart ch s) := by
    by_cases hpart : s.seq.part = 0
    · exact .inl (selectAndStart_first hpart ▸ stage_selectChannel_goes (hidle hwindow) hdial)
    · exact .inl (selectAndStart_last hpart ▸ stage_startConversion_goes (hbetween hpart))
  have hread (hpart : s.seq.part = 0) (hreads : readingWord (acqWord s.core.cnt) = true) :=
    readResult_goes hacq hpart hreads
  have hdiscard (hreads : readingWord (acqWord s.core.cnt) = true) : GoesOrReadsUnfinished s (discardAndStart s) := by
    by_cases hpart : s.seq.part = 0
    · exact discardAndStart_first hpart ▸ (hread hpart hreads).andThen fun u => ⟨_, rfl⟩
    · exact .inl (discardAndStart_last hpart ▸ stage_startConversion_goes (hbetween hpart))
  generalize hi : acquisitionOf (acqWord s.core.cnt) = i at hlt
  cases i with
  | acqWsel =>
    have hw := (acqWord_eq_iff s.core.cnt (p := 0x00) (i := .acqWsel) rfl).2 hi
    exact hselect s.cfg.chW (.inl rfl) (by simp [hw, idleWindow])
  | acqEsel =>
    have hw := (acqWord_eq_iff s.core.cnt (p := 0x60) (i := .acqEsel) rfl).2 hi
    exact hselect s.cfg.chE (.inr (.inl rfl)) (by simp [hw, idleWindow])
  | acqWdisc | acqEdisc | acqFdisc => exact hdiscard (by simp [readingWord, hi])
  | acqWlatch | acqFlatch =>
    have hpart : s.seq.part = 0 := Fin.ext (Nat.lt_one_iff.1 hlt)
    exact (hread hpart (by simp [readingWord, hi])).andThen fun u => ⟨_, rfl⟩
  | acqElatchFsel =>
    rw [exec_acqElatchFsel]
    by_cases hpart : s.seq.part = 0
    · rw [execAcqElatchFsel_first hpart]
      exact ((hread hpart (by simp [readingWord, hi])).andThen fun u => ⟨_, rfl⟩).andThen fun u => ⟨_, rfl⟩
    · obtain hone | htwo := part_eq_one_or_two hpart
      · exact .inl (execAcqElatchFsel_second hone ▸ stage_selectChannel_goes (hbetween hpart) (.inr (.inr rfl)))
      · exact .inl (execAcqElatchFsel_last htwo ▸ stage_startConversion_goes (hbetween hpart))
  | acqNop band off => exact .inl ⟨s, exec_acqNop band off s⟩
  | _ => exact absurd (acquisitionOf_format (acqWord s.core.cnt)) (by simp [hi, Instr.format])

/-! ### Whole steps -/

theorem exec_goes (hinv : Inv s) (hop : s.operation = some i) : GoesOrReadsUnfinished s (exec i s) := by
  by_cases hboot : s.seq.fstep = .boot
  · exact .inl (exec_goes_boot hinv hop hboot)
  · by_cases hacq : s.seq.fstep = .acq
    · obtain rfl := Option.some.inj ((operation_acq hacq).symm.trans hop)
      exact exec_goes_acq hinv hacq
    · exact .inl (exec_goes_frame hinv hop hboot hacq)

/-- Good parameters are not refused. -/
theorem configFault_of_good (hgood : GoodConfig s) : s.configFault = none := by
  unfold State.configFault
  split
  · exact Config.good_firstBad hgood
  · rfl

theorem coreStep_goes (hinv : Inv s) : GoesOrReadsUnfinished s (coreStep s) := by
  have hconfig := configFault_of_good hinv.good
  cases hop : s.operation with
  | none => exact .inl ⟨_, coreStep_eq_bootRegisters hconfig hop⟩
  | some i =>
    rw [coreStep_eq_issue hconfig hop]
    exact (exec_goes hinv hop).andThen fun u => ⟨_, rfl⟩

theorem timerClock_goes (hinv : Inv s) : ∃ t, timerClock s = .next t := by
  unfold timerClock
  rw [if_neg hinv.periods.1]
  split
  · split
    · exact ⟨_, rfl⟩
    · exact ⟨_, rfl⟩
  · exact ⟨_, rfl⟩

theorem timerMatch_goes (s : State) : ∃ t, timerMatch s = .next t := by
  unfold timerMatch
  split
  · exact ⟨_, rfl⟩
  · exact ⟨_, rfl⟩

theorem adcComplete_goes (ain residual : Dial) (s : State) : ∃ t, adcComplete ain residual s = .next t := by
  unfold adcComplete
  split
  · exact ⟨_, rfl⟩
  · exact ⟨_, rfl⟩

/-- Only the core's move stops, at the read of an unfinished conversion. -/
theorem moveStep_goes {m : Move} (hinv : Inv s) :
    (∃ t, moveStep m s = .next t) ∨ m = .core ∧ ReadsUnfinished s ∧ moveStep m s = .fault (.adcNotDone s.core.cnt) := by
  cases m with
  | core =>
    obtain hnext | hunfinished := coreStep_goes hinv
    · exact .inl hnext
    · exact .inr ⟨rfl, hunfinished⟩
  | timerClock => exact .inl (timerClock_goes hinv)
  | timerMatch => exact .inl (timerMatch_goes s)
  | adcComplete ain residual => exact .inl (adcComplete_goes ain residual s)
  | reset => exact .inl ⟨_, rfl⟩

end

/-! ### The statements -/

/-- Settles O56. -/
theorem onlyUnfinishedReadsFault : Obligations.OnlyUnfinishedReadsFault := by
  intro s hinv
  obtain hnext | ⟨-, -, hfault⟩ := moveStep_goes (m := s.nextMove) hinv.afterMove
  · exact .inl hnext
  · exact .inr (by rw [step_eq, hfault, State.afterMove_core])

/-- Settles O57: `ADC_FAST` says that no read is of an unfinished conversion. -/
theorem fastAdcNeverStops : Obligations.FastAdcNeverStops := by
  intro s hinv hfast
  obtain hnext | ⟨hmove, ⟨hacq, hpart, hreads, hbusy⟩, -⟩ := moveStep_goes (m := s.nextMove) hinv.afterMove
  · exact hnext
  · rw [State.afterMove_seq] at hacq hpart
    rw [State.afterMove_core] at hreads
    rw [State.afterMove_adc, hfast hmove hacq hpart hreads] at hbusy
    cases hbusy

end Sys2Proof
end

section
/-! PROOFS. A frame of `SINGLE` mode (41_frame_scheduler.md R123): its sample generated, quantized and written to its port, and the
statement O59. -/

namespace Sys2Proof
open Sys2Proof.Machine

/-! ### The sample of a frame -/

/-- The core registers after the generator of the variant `v`, where its sample is `g`: the triangle's amplitude is its sample. -/
def generatedCore (s : State) (v : Variant) (g : Sample) : CoreRegs :=
  { s.core with
    tri := if v = .triangle then g else s.core.tri
    rng := if v = .noise then xorShift s.cfg.xsA s.cfg.xsB s.cfg.xsC s.core.rng else s.core.rng }

theorem generatorCore_eq {s : State} {v : Variant} {g : Sample} (hg : generated s v = some g) :
    generatorCore s v = generatedCore s v g := by
  cases v with
  | triangle => cases hg; rfl
  | _ => rfl

theorem putSample_single {s : State} (hsingle : s.cfg.outputMode = .single) (v : Sample) :
    s.putSample v = s.setSamples { s.samples with mono := v } := by
  rw [State.putSample, hsingle]

theorem sample_single {s : State} (hsingle : s.cfg.outputMode = .single) : s.sample = s.samples.mono := by
  rw [State.sample, hsingle]

/-! ### `SYNTH`, `EFFECT` and `ENCODE` in `SINGLE` mode -/

section
variable {s : State} {b : BootStep} {ch : Channel} {k : Fin 3}

/-- The variant that `DW` selects (R92). -/
def Machine.State.variant (s : State) : Variant := s.cfg.variantCode.variantOf (variantField s.core.dw)

theorem issues_synth_single (hsingle : s.cfg.outputMode = .single) (hseq : s.seq = ⟨.synth, b, ch, k⟩) :
    s.issues s.variant.generator :=
  issues_of_selector .synth hseq (by decide) (by rw [State.selector, hseq, hsingle]) rfl

theorem coreRun_synth_single {g : Sample} (hsingle : s.cfg.outputMode = .single) (hseq : s.seq = ⟨.synth, b, ch, k⟩)
    (hg : generated s s.variant = some g) :
    CoreRun 1 s { s with core := generatedCore s s.variant g, samples := { s.samples with mono := g },
                         seq := ⟨.effect, b, ch, k⟩ } := by
  refine CoreRun.complete
    (u := (s.setCore (generatedCore s s.variant g)).setSamples { s.samples with mono := g })
    (issues_synth_single hsingle hseq) (completes_of_format (by simp [Variant.generator_format])) (fun ms => ?_)
    (by simp [hseq, hsingle, Sequencer.after])
  rw [exec_generator (s := s.withScript ms) hg, generatorCore_eq (s := s.withScript ms) hg]
  exact congrArg Host.Outcome.next
    (putSample_single (s := (s.withScript ms).setCore (generatedCore s s.variant g)) hsingle g)

theorem coreRun_effect_single {q : Sample} (hsingle : s.cfg.outputMode = .single) (hseq : s.seq = ⟨.effect, b, ch, k⟩)
    (hq : quantized s.cfg s.core.de s.samples.mono = some q) :
    CoreRun 1 s { s with samples := { s.samples with mono := q }, seq := ⟨.encode, b, ch, k⟩ } := by
  refine CoreRun.complete (u := s.setSamples { s.samples with mono := q }) (issues_effect hseq)
    (completes_of_format (by simp [quantizerOf_format])) (fun ms => ?_) (by simp [hseq, hsingle, Sequencer.after])
  have hsample : (s.withScript ms).sample = s.samples.mono := sample_single hsingle
  exact exec_quantizerOf_eq_next.2 ⟨q, hsample ▸ hq, (putSample_single (s := s.withScript ms) hsingle q).symm⟩

theorem coreRun_encode_single (hgood : GoodConfig s) (hsingle : s.cfg.outputMode = .single)
    (hseq : s.seq = ⟨.encode, b, ch, 0⟩) :
    CoreRun 1 s
      { s with ports := s.ports.write s.cfg.singlePinmap.port (singleWord s.cfg s.samples.mono),
               events := s.events ++ [.dWrite s.cfg.singlePinmap.port (singleWord s.cfg s.samples.mono)],
               seq := ⟨.acq, b, ch, 0⟩ } := by
  have hissue : s.issues .encSingle := by
    have hencoder := issues_encode hseq
    rwa [hsingle] at hencoder
  exact CoreRun.complete
    (u := (s.setPorts (s.ports.write s.cfg.singlePinmap.port (singleWord s.cfg s.samples.mono))).emit
      (.dWrite s.cfg.singlePinmap.port (singleWord s.cfg s.samples.mono)))
    hissue (by simp [completes, halSteps])
    (fun ms => exec_encSingle (s := s.withScript ms) (portInUse_of_single (s := s) hgood hsingle))
    (by simp [hseq, Sequencer.after])

end

/-! ### The frame -/

/-- The state of a `SINGLE` frame on entry to `ACQ`: the period `v` is programmed, the generator has given `g`, and the quantized
sample `q` is on the port. -/
def Machine.State.singleEncoded (s : State) (v : Period) (g q : Sample) : State :=
  { s with
    core := generatedCore s s.variant g
    samples := { s.samples with mono := q }
    timer := { s.timer with matchFlag := false, tnxt := v }
    ports := s.ports.write s.cfg.singlePinmap.port (singleWord s.cfg q)
    events := s.events ++ [.tWaitclr, .tSetper v, .dWrite s.cfg.singlePinmap.port (singleWord s.cfg q)]
    seq := ⟨.acq, s.seq.boot, s.seq.chan, 0⟩ }

/-- A frame of `SINGLE` mode up to its `ACQ` step. -/
theorem coreRun_singleEncoded {s : State} {v : Period} {g q : Sample} (hgood : GoodConfig s)
    (hsingle : s.cfg.outputMode = .single) (hseq : s.seq = ⟨.wait, s.seq.boot, s.seq.chan, 0⟩)
    (hmatch : s.timer.matchFlag = true) (hv : s.cfg.pt[(pidxField s.core.df).toNat]? = some v) (hne : v ≠ 0)
    (hg : generated s s.variant = some g) (hq : quantized s.cfg s.core.de g = some q) :
    CoreRun 5 s (s.singleEncoded v g q) := by
  have hbegin := (coreRun_wait hseq hmatch).trans (coreRun_reload rfl hv hne)
  have hsynth := hbegin.trans (coreRun_synth_single hsingle rfl hg)
  have heffect := hsynth.trans (coreRun_effect_single hsingle rfl hq)
  have hencode := heffect.trans (coreRun_encode_single hgood hsingle rfl)
  have hevents (a b c : Event) : s.events ++ [a, b, c] = s.events ++ [a] ++ [b] ++ [c] := by simp
  rw [State.singleEncoded, hevents]
  exact hencode

/-- Settles O59: the positions of the frame in a row. -/
theorem frameComputesItsSample : Obligations.FrameComputesItsSample := by
  intro s rest hgood hsingle hstep hpart hmatch hready hscript
  have hseq : s.seq = ⟨.wait, s.seq.boot, s.seq.chan, 0⟩ := by rw [← hstep, ← hpart]
  obtain ⟨v, hv, hne⟩ := exists_period hgood s.core.df
  obtain ⟨g, hg⟩ := exists_generated hgood s.variant
  obtain ⟨q, hq⟩ := exists_quantized hgood s.core.de g
  have hencoded := coreRun_singleEncoded hgood hsingle hseq hmatch hv hne hg hq
  have hsteps : 5 + halSteps (acquisitionOf (acqWord s.core.cnt)) + 1 = frameSteps s + 2 := by
    rw [frameSteps, hsingle]
    change _ = 3 + 1 + _ + 2
    omega
  have hframe := (hencoded.trans (coreRun_acq rfl hready)).trans (coreRun_advance rfl)
  rw [← hsteps] at hscript ⊢
  exact ⟨_, v, g, q, hframe.run_eq hscript, pidxField_toNat s.core.df ▸ hv, hg, hq, rfl, rfl, rfl, rfl, rfl, rfl, rfl, rfl,
    latched_acquiredCore s, rfl, rfl, rfl, hseq.symm, rfl, rfl⟩

end Sys2Proof
end

section
/-! PROOFS. The reset sequence (70_reset_and_hazards.md R301 to R303): runs of given moves, one blocking read, the reads of one dial, and
the statement O58. -/

namespace Sys2Proof
open Sys2Proof.Machine

/-! ### Runs of given moves -/

/-- The moves `ms` lead from `s` to `t`, whatever moves come after them. -/
def MoveRun (ms : List Move) (s t : State) : Prop :=
  ∀ rest, run ms.length (s.withScript (ms ++ rest)) = .next (t.withScript rest)

theorem MoveRun.trans {ms ms' : List Move} {s t u : State} (hst : MoveRun ms s t) (htu : MoveRun ms' t u) :
    MoveRun (ms ++ ms') s u := by
  intro rest
  rw [List.length_append, run_add, List.append_assoc, hst]
  exact htu rest

/-- A script that begins with the moves runs them. -/
theorem MoveRun.run_eq {ms rest : List Move} {s t : State} (h : MoveRun ms s t) (hscript : s.env.script = ms ++ rest) :
    run ms.length s = .next (t.withScript rest) := by
  rw [← h rest, ← hscript]
  rfl

/-- One move. -/
theorem MoveRun.single {m : Move} {s t : State} (h : ∀ ms, moveStep m (s.withScript ms) = .next (t.withScript ms)) :
    MoveRun [m] s t := by
  intro rest
  change andThen (moveStep m (s.withScript rest)) (run 0) = _
  rw [h rest]
  rfl

section
variable {s u : State} {b : BootStep} {c : Channel} {k : Fin 3} {i : Instr}

/-! ### The core in the reset sequence (70 R301) -/

theorem coreStep_boot (hgood : GoodConfig s) (hseq : s.seq = ⟨.boot, b, c, k⟩) (hop : bootOperation s.cfg b = some i)
    (ms : List Move) : coreStep (s.withScript ms) = issue i (s.withScript ms) := by
  refine coreStep_eq_issue (configFault_of_good hgood) ((operation_boot (congrArg Sequencer.fstep hseq)).trans ?_)
  exact (congrArg (bootOperation s.cfg) (congrArg Sequencer.boot hseq)).trans hop

theorem advance_withScript (s : State) (ms : List Move) : (s.withScript ms).advance = s.advance.withScript ms := by
  unfold State.advance
  rw [show (s.withScript ms).seq = s.seq from rfl]
  split <;> rfl

/-- A step that completes its operation: a kept read is latched, and the core goes on. -/
theorem MoveRun.bootComplete (hgood : GoodConfig s) (hseq : s.seq = ⟨.boot, b, c, k⟩)
    (hop : bootOperation s.cfg b = some i) (hdone : completes i s = true)
    (hexec : ∀ ms, exec i (s.withScript ms) = .next (u.withScript ms)) :
    MoveRun [.core] s u.advance := by
  refine MoveRun.single fun ms => ?_
  have hdone' : completes i (s.withScript ms) = true := hdone
  change coreStep (s.withScript ms) = _
  rw [coreStep_boot hgood hseq hop, issue, hexec, andThen_next, if_pos hdone', advance_withScript]

/-- A step that leaves the core at its position. -/
theorem MoveRun.bootStay (hgood : GoodConfig s) (hseq : s.seq = ⟨.boot, b, c, k⟩)
    (hop : bootOperation s.cfg b = some i) (hdone : completes i s = false)
    (hexec : ∀ ms, exec i (s.withScript ms) = .next (u.withScript ms)) : MoveRun [.core] s u := by
  refine MoveRun.single fun ms => ?_
  have hdone' : completes i (s.withScript ms) = false := hdone
  change coreStep (s.withScript ms) = _
  rw [coreStep_boot hgood hseq hop, issue, hexec, andThen_next, hdone']
  rfl

/-- The configuration of a peripheral. -/
theorem moveRun_configure (hgood : GoodConfig s) (hseq : s.seq = ⟨.boot, b, c, k⟩)
    (hop : bootOperation s.cfg b = some i) (hdone : completes i s = true) {p : Peripheral}
    (hexec : ∀ ms, exec i (s.withScript ms) = configure p (u.withScript ms) (s.withScript ms)) :
    MoveRun [.core] s u.advance := by
  have hboot : s.seq.fstep = .boot := congrArg Sequencer.fstep hseq
  exact MoveRun.bootComplete hgood hseq hop hdone fun ms => (hexec ms).trans (configure_eq_next.2 ⟨hboot, rfl⟩)

/-- The step that writes the core registers. -/
theorem moveRun_bootRegisters (hgood : GoodConfig s) (hseq : s.seq = ⟨.boot, .regs, c, k⟩) :
    MoveRun [.core] s (bootRegisters s).advance := by
  refine MoveRun.single fun ms => ?_
  have hop : (s.withScript ms).operation = none := by
    rw [operation_boot (by exact congrArg Sequencer.fstep hseq)]
    exact congrArg (bootOperation s.cfg) (congrArg Sequencer.boot hseq)
  change coreStep (s.withScript ms) = _
  rw [coreStep_eq_bootRegisters (s := s.withScript ms) (configFault_of_good hgood) hop]
  exact congrArg Host.Outcome.next (advance_withScript (bootRegisters s) ms)

/-! ### One blocking read (46 R248) -/

/-- The state after a blocking read has started its conversion. -/
def Machine.State.polling (s : State) : State :=
  { s with core := { s.core with rdblk := true }, adc := s.adc.started, events := s.events ++ [.aStart] }

/-- The state after the ADC has completed with `v`. -/
def Machine.State.completed (s : State) (v : Dial) : State :=
  { s with adc := s.adc.completed v, events := s.events ++ [.adcComplete v] }

/-- The state after a blocking read has returned `v`. -/
def Machine.State.returned (s : State) (v : Dial) : State :=
  { s with core := { s.core with res := v, rdblk := false },
           events := s.events ++ [.aDone true, .aRead v, .aReadblk v] }

/-- The state after one blocking read of the reset sequence. -/
def Machine.State.bootRead (s : State) (v : Dial) : State := ((s.polling.completed v).returned v).advance

theorem moveRun_polling (hgood : GoodConfig s) (hseq : s.seq = ⟨.boot, b, c, k⟩)
    (hop : bootOperation s.cfg b = some .aReadblk) (hclear : s.core.rdblk = false) (hrest : s.adc.abusy = false) :
    MoveRun [.core] s s.polling :=
  MoveRun.bootStay hgood hseq hop (by simp [completes, hclear]) fun ms =>
    (execAReadblk_start (s := s.withScript ms) hclear).trans
      (andThen_eq_next.2 ⟨_, startConversion_eq_next.2 ⟨hrest, rfl⟩, rfl⟩)

theorem moveRun_completed {ain residual v : Dial} (hbusy : s.adc.abusy = true)
    (hv : s.adc.converted ain residual = v) : MoveRun [.adcComplete ain residual] s (s.completed v) := by
  subst hv
  exact MoveRun.single fun _ => if_pos hbusy

theorem moveRun_returned (hgood : GoodConfig s) (hseq : s.seq = ⟨.boot, b, c, k⟩)
    (hop : bootOperation s.cfg b = some .aReadblk) (hpoll : s.core.rdblk = true) (hdone : s.adc.adone = true) :
    MoveRun [.core] s (s.returned s.adc.ares).advance :=
  MoveRun.bootComplete hgood hseq hop (by simp [completes, hpoll, hdone]) fun ms => by
    rw [exec_aReadblk, execAReadblk_poll (by exact hpoll), if_pos (by exact hdone), finishRead_eq (by exact hdone)]
    rfl

/-- A blocking read that is answered at once. -/
theorem moveRun_read (hgood : GoodConfig s) (hseq : s.seq = ⟨.boot, b, c, k⟩)
    (hop : bootOperation s.cfg b = some .aReadblk) (hclear : s.core.rdblk = false) (hrest : s.adc.abusy = false)
    {ain residual v : Dial} (hv : s.adc.converted ain residual = v) :
    MoveRun (readMoves ain residual) s (s.bootRead v) :=
  ((moveRun_polling hgood hseq hop hclear hrest).trans (moveRun_completed rfl hv)).trans
    (moveRun_returned (s := s.polling.completed v) hgood hseq hop rfl rfl)

/-! ### The reads of one dial -/

/-- The state after a dial's channel is selected. -/
def Machine.State.dialSelected (s : State) (ch : ChannelId) : State :=
  { s with adc := s.adc.selected ch, events := s.events ++ [.aSel ch] }

@[simp] theorem bootRead_cfg (s : State) (v : Dial) : (s.bootRead v).cfg = s.cfg := State.advance_cfg _
@[simp] theorem bootRead_rdblk (s : State) (v : Dial) : (s.bootRead v).core.rdblk = false := advance_rdblk _
@[simp] theorem bootRead_seq (s : State) (v : Dial) : (s.bootRead v).seq = s.seq.after s.cfg.outputMode :=
  State.advance_seq _
@[simp] theorem bootRead_adc (s : State) (v : Dial) :
    (s.bootRead v).adc = { s.adc with abusy := false, adone := true, ares := v, asettle := false } :=
  State.advance_adc _

/-- In the reset sequence going on latches a kept read. -/
theorem advance_of_boot (hboot : s.seq.fstep = .boot) :
    s.advance = (s.setCore (bootLatch s.seq.boot s.core)).setSeq (s.seq.after s.cfg.outputMode) := by
  unfold State.advance
  rw [hboot]

theorem bootRead_eq {v : Dial} (hboot : s.seq.fstep = .boot) :
    s.bootRead v =
      { s with
        core := bootLatch s.seq.boot { s.core with res := v, rdblk := false }
        seq := s.seq.after s.cfg.outputMode
        adc := { s.adc with abusy := false, adone := true, ares := v, asettle := false }
        events := s.events ++ [.aStart, .adcComplete v, .aDone true, .aRead v, .aReadblk v] } := by
  rw [State.bootRead, advance_of_boot (by exact hboot)]
  simp [State.setCore, State.setSeq, State.polling, State.completed, State.returned, Adc.started, Adc.completed]

/-- The history of one dial, in which the conversions return `x` and then `v`. -/
def dialHistory (ch : ChannelId) (x v : Dial) : List Event :=
  [.aSel ch, .aStart, .adcComplete x, .aDone true, .aRead x, .aReadblk x,
   .aStart, .adcComplete v, .aDone true, .aRead v, .aReadblk v]

/-- The state after a dial is selected and read twice: `x` is discarded, `v` kept. -/
def Machine.State.dialRead (s : State) (ch : ChannelId) (x v : Dial) : State :=
  { s with
    core := bootLatch s.seq.boot.after.after { s.core with res := v, rdblk := false }
    seq := Sequencer.after s.cfg.outputMode { s.seq with boot := s.seq.boot.after.after }
    adc := { ach := ch, abusy := false, adone := true, ares := v, asettle := false }
    events := s.events ++ dialHistory ch x v }

/-- The moves in which a dial reads `v`, and the contaminated conversion before it `x`. -/
def dialMoves (v x : Dial) : List Move := [.core] ++ readMoves v x ++ readMoves v x

/-- A selection of the reset sequence is of a dial's channel, and two blocking reads follow it. -/
theorem bootOperation_after_aSel {cfg : Config} {ch : ChannelId} (hop : bootOperation cfg b = some (.aSel ch)) :
    (ch = cfg.chW ∨ ch = cfg.chE ∨ ch = cfg.chF) ∧ b ≠ .keepF ∧ b.after ≠ .keepF ∧
      bootOperation cfg b.after = some .aReadblk ∧ bootOperation cfg b.after.after = some .aReadblk := by
  cases b <;> cases hop <;> simp [BootStep.after, bootOperation]

/-- A selection and the discarded read after it latch nothing. -/
theorem bootLatch_before_kept {cfg : Config} {ch : ChannelId} (hop : bootOperation cfg b = some (.aSel ch))
    (r : CoreRegs) : bootLatch b r = r ∧ bootLatch b.after r = r := by
  cases b <;> cases hop <;> exact ⟨rfl, rfl⟩

theorem after_bootStep {m : OutputMode} (hb : b ≠ .keepF) :
    Sequencer.after m ⟨.boot, b, c, k⟩ = ⟨.boot, b.after, c, k⟩ := by
  obtain ⟨hlast, -⟩ | ⟨-, hseq⟩ := after_boot (m := m) (q := ⟨.boot, b, c, k⟩) rfl
  · exact absurd hlast hb
  · exact hseq

theorem dialRead_eq {ch : ChannelId} {x v : Dial} (hseq : s.seq = ⟨.boot, b, c, k⟩)
    (hop : bootOperation s.cfg b = some (.aSel ch)) :
    ((s.dialSelected ch).advance.bootRead x).bootRead v = s.dialRead ch x v := by
  obtain ⟨-, hb, hb', -, -⟩ := bootOperation_after_aSel hop
  have hselect : (s.dialSelected ch).advance = { s.dialSelected ch with seq := ⟨.boot, b.after, c, k⟩ } := by
    rw [advance_of_boot (by exact congrArg Sequencer.fstep hseq)]
    simp [State.setCore, State.setSeq, State.dialSelected, hseq, after_bootStep hb, (bootLatch_before_kept hop _).1]
  rw [hselect, bootRead_eq (v := x) (by rfl), bootRead_eq (v := v) (by simp [after_bootStep hb'])]
  simp [State.dialRead, State.dialSelected, Adc.selected, dialHistory, hseq, after_bootStep hb',
    (bootLatch_before_kept hop _).2]

/-- A dial of the reset sequence: the conversion after the selection is contaminated, the next one is settled. -/
theorem moveRun_dial (hgood : GoodConfig s) {ch : ChannelId} (hseq : s.seq = ⟨.boot, b, c, k⟩)
    (hop : bootOperation s.cfg b = some (.aSel ch)) (hclear : s.core.rdblk = false) (hrest : s.adc.abusy = false)
    (v x : Dial) : MoveRun (dialMoves v x) s (s.dialRead ch x v) := by
  obtain ⟨hdial, hb, hb', hdisc, hkeep⟩ := bootOperation_after_aSel hop
  have hselect : MoveRun [.core] s (s.dialSelected ch).advance :=
    MoveRun.bootComplete hgood hseq hop (by simp [completes, halSteps]) fun ms =>
      selectChannel_eq_next.2 ⟨hrest, dialChannel_of_dial (s := s.withScript ms) hdial, rfl⟩
  have hseq' : (s.dialSelected ch).advance.seq = ⟨.boot, b.after, c, k⟩ := by
    rw [State.advance_seq, ← after_bootStep (m := s.cfg.outputMode) hb, ← hseq]
    rfl
  have hdiscard : MoveRun (readMoves v x) (s.dialSelected ch).advance ((s.dialSelected ch).advance.bootRead x) :=
    moveRun_read (by simpa [GoodConfig, State.dialSelected] using hgood) hseq'
      (by simpa [State.dialSelected] using hdisc) (by simpa [State.dialSelected] using hclear)
      (by simpa [State.dialSelected, Adc.selected] using hrest)
      (by simp [State.dialSelected, Adc.selected, Adc.converted])
  have hkept := moveRun_read (s := (s.dialSelected ch).advance.bootRead x) (ain := v) (residual := x) (v := v)
    (by simpa [GoodConfig, State.dialSelected] using hgood)
    (by rw [bootRead_seq, hseq', after_bootStep hb']) (by simpa [State.dialSelected] using hkeep) (bootRead_rdblk _ _)
    (by simp) (by simp [Adc.converted])
  exact dialRead_eq (x := x) (v := v) hseq hop ▸ (hselect.trans hdiscard).trans hkept

end

/-! ### The sequence -/

/-- The state after `D.INIT`. -/
def Machine.State.portsConfigured (s : State) : State :=
  ((s.setPorts { p0 := Config.freePort s.env.draws, p1 := Config.freePort (s.env.draws + 1),
                 p2 := Config.freePort (s.env.draws + 2), outputs := true }).drew 3).emit .dInit

/-- The state after `A.INIT`. -/
def Machine.State.adcConfigured (s : State) : State :=
  ((s.setAdc (s.adc.initialised (Config.freeChannel s.env.draws) (Config.freeResult s.env.draws))).drew 1).emit .aInit

/-- The state after `T.INIT`. -/
def Machine.State.timerConfigured (s : State) : State :=
  (s.setTimer { tcnt := 0, tper := s.cfg.pInit, tnxt := s.cfg.pInit, matchFlag := false, running := true }).emit .tInit

/-- The state after the three configurations and the write of the core registers, which holds the values of the reset. -/
def configuredState (cfg : Config) : State :=
  { State.resetOf cfg with
    timer := { timerReset cfg with running := true }
    adc := (adcReset cfg).initialised (Config.freeChannel 3) (Config.freeResult 3)
    ports := { p0 := Config.freePort 0, p1 := Config.freePort 1, p2 := Config.freePort 2, outputs := true }
    seq := ⟨.boot, .selW, .sine, 0⟩
    env := { script := [], draws := 4 }
    events := [.dInit, .aInit, .tInit] }

/-- The first four moves of the sequence. -/
theorem moveRun_configured {cfg : Config} (hgood : cfg.good = true) :
    MoveRun (coreMoves 4) (State.resetOf cfg) (configuredState cfg) := by
  have hports : MoveRun [.core] (State.resetOf cfg) (State.resetOf cfg).portsConfigured.advance :=
    moveRun_configure (p := .ports) hgood rfl rfl rfl fun _ => rfl
  have hadc := hports.trans (moveRun_configure (p := .adc) (u := (State.resetOf cfg).portsConfigured.advance.adcConfigured)
    hgood rfl rfl rfl fun _ => rfl)
  have htimer := hadc.trans (moveRun_configure (p := .timer)
    (u := (State.resetOf cfg).portsConfigured.advance.adcConfigured.advance.timerConfigured) hgood rfl rfl rfl fun _ => rfl)
  exact htimer.trans (moveRun_bootRegisters hgood rfl)

/-- The state at the end of the sequence, where the dials read `w`, `e` and `f`. -/
def bootedState (cfg : Config) (w e f x : Dial) : State :=
  (((configuredState cfg).dialRead cfg.chW x w).dialRead cfg.chE x e).dialRead cfg.chF x f

/-- The moves of the sequence. -/
theorem moveRun_booted {cfg : Config} (hgood : cfg.good = true) (w e f x : Dial) :
    MoveRun (bootScript w e f x) (State.resetOf cfg) (bootedState cfg w e f x) := by
  have hw : MoveRun (dialMoves w x) (configuredState cfg) _ :=
    moveRun_dial (s := configuredState cfg) hgood rfl rfl rfl rfl w x
  have he := moveRun_dial (s := (configuredState cfg).dialRead cfg.chW x w) (ch := cfg.chE) hgood rfl rfl rfl rfl e x
  have hf := moveRun_dial (s := ((configuredState cfg).dialRead cfg.chW x w).dialRead cfg.chE x e) (ch := cfg.chF)
    hgood rfl rfl rfl rfl f x
  exact (((moveRun_configured hgood).trans hw).trans he).trans hf

/-- The events of the sequence in order, those of the ADC among them. -/
theorem bootedState_events (cfg : Config) (w e f x : Dial) :
    (bootedState cfg w e f x).events =
      [Event.dInit, Event.aInit, Event.tInit] ++ dialHistory cfg.chW x w ++ dialHistory cfg.chE x e ++
        dialHistory cfg.chF x f := rfl

/-- Where no reset event is in the history, all of it is since the reset. -/
theorem sinceReset_of_not_mem {es : List Event} (h : .reset ∉ es) : sinceReset es = es := by
  cases es with
  | nil => rfl
  | cons e es =>
    simp only [List.mem_cons, not_or] at h
    rw [sinceReset, if_neg (by simpa using h.2), if_neg (Ne.symm h.1)]

theorem bootedState_booted (cfg : Config) (w e f x : Dial) (ms : List Move) :
    Booted ((bootedState cfg w e f x).withScript ms) w e f where
  fstep := rfl
  cnt := rfl
  det := rfl
  tri := rfl
  rng := rfl
  dw := rfl
  de := rfl
  df := rfl
  tnxt := rfl
  tper := rfl
  ach := rfl
  abusy := rfl
  adone := rfl
  asettle := rfl
  ares := rfl
  running := rfl
  history := by
    refine ⟨x, x, x, ?_⟩
    change (sinceReset (bootedState cfg w e f x).events).filter isCoreEvent = bootEvents cfg x w x e x f
    rw [sinceReset_of_not_mem (by simp [bootedState_events, dialHistory]), bootedState_events]
    rfl
  place := ⟨rfl, rfl, rfl⟩

/-- Settles O58. -/
theorem resetSequenceReachesFrameZero : Obligations.ResetSequenceReachesFrameZero := by
  intro cfg w e f x rest hgood
  exact ⟨_, moveRun_booted hgood w e f x rest, bootedState_booted cfg w e f x rest, rfl, rfl,
    bootedState_events cfg w e f x⟩

end Sys2Proof
end
